-- ==== Sys2Proof/Word.lean ====
section
/-! DEFINITION. The plain data of the block: ticks, bytes, the two separate level domains, segments,
edge events, and the raw inputs ("words") that reach the block, each on the carrier that
30_encoding.md R45 gives its format. -/

namespace Sys2Proof

/-- `u32`, a timestamp of the tick counter (00_scope.md R4 `TICK_BITS` = 32, 30_encoding.md R52). -/
abbrev Tick := BitVec 32

/-- `u8`: a command byte, and also one sample of the queue (00_scope.md section 6.1, 30_encoding.md R50). -/
abbrev U8 := BitVec 8

/-- A level of the OUTPUT PIN `tx` (30_encoding.md R46: it never appears in an edge event). -/
inductive PinLevel where
  | low
  | high
deriving DecidableEq, Repr, Inhabited

/-- A level of the OBSERVED LINE `rx`, which is the bus (30_encoding.md R46: it never appears in a
segment). It has two values only, so a third level cannot be written (93_implementation_defined.md U6). -/
inductive LineLevel where
  | low
  | high
deriving DecidableEq, Repr, Inhabited

/-- A segment, `(level, duration in microseconds)` (00_scope.md section 6.1). -/
structure Segment where
  level : PinLevel
  duration : Nat
deriving DecidableEq, Repr

/-- A waveform: segments played in order, each for exactly its duration (00_scope.md section 6.1). -/
abbrev Waveform := List Segment

/-- An `EdgeEvent`: the level of the line after the transition, and its tick (30_encoding.md R52). -/
structure EdgeEvent where
  level : LineLevel
  timestamp : Tick
deriving DecidableEq, Repr

/-- The operands that an operation of format `OP` is given, by their shape
(spec/opcode_table.json, the rows' `operands`). -/
inductive OpArgs where
  | nothing
  | bytes (bs : List U8)
  | command (str : List Char) (now : Tick)
  | event (e : EdgeEvent)
  | tick (now : Tick)
deriving DecidableEq, Repr

/-- One raw input, on the carrier of its format (30_encoding.md R45 and R62). The formats share no
instruction word, so the carrier itself says which format an input has.
`wire`: a pin waveform in units of 600 us, `true` for HIGH, first unit first.
`sample8`: one 8-bit sample.
`edge`: the 33-bit listing word, bit 32 the level and bits 31..0 the timestamp.
`op`: an operation selected by its name. -/
inductive Word where
  | wire (units : List Bool)
  | sample8 (s : U8)
  | edge (w : BitVec 33)
  | op (name : String) (args : OpArgs)
deriving DecidableEq, Repr

/-- The four formats of spec/opcode_table.json. -/
inductive Format where
  | wire
  | sample8
  | edge
  | op
deriving DecidableEq, Repr

/-- The format of a raw input is its carrier. -/
def wordFormat : Word → Format
  | .wire _ => .wire
  | .sample8 _ => .sample8
  | .edge _ => .edge
  | .op _ _ => .op

end Sys2Proof
end

