-- ==== Sys2Proof/Config.lean ====
section
/-! DEFINITION. The configuration record of 00_scope.md R4 (its values are `Machine.params`, in
Machine/Params.lean) and the free values: opaque constants for what the spec leaves at "any value". -/

namespace Sys2Proof

/-- The implementation parameters of 00_scope.md R4, under the spec's names, and the open parameters
`ALLOW_EMPTY` and `CODES` of 92_eei_decisions.md. -/
structure Config where
  tickBits : Nat
  tickUnit : Nat
  tSyncMark : Nat
  tSpace : Nat
  tOneMark : Nat
  tZeroMark : Nat
  tGuard : Nat
  tDebounce : Nat
  tIdle : Nat
  qDiv : Nat
  sampleMax : Nat
  fifoCap : Nat
  rawGap : Nat
  rawOne : Nat
  byteBits : Nat
  allowEmpty : Bool
  codeOk : Nat
  codeMalformedCommand : Nat
  codeBusBusy : Nat
  codeHardwareUnavailable : Nat
deriving DecidableEq, Repr

/-- FREE VALUE: the level of the output pin after `HW_FAIL` (60_exceptions.md R134,
93_implementation_defined.md U4: "any value for tx at every tick after HW_FAIL"). It is applied to a
counter in State, so that every draw may differ. Assumption log 5. -/
opaque Config.freePinLevel : Nat → PinLevel

/-- FREE VALUE: the text of the discard notice for `n` bits (30_encoding.md R57,
93_implementation_defined.md U9: "any value for the text"). Assumption log 14. -/
opaque Config.noticeText : Nat → List Char

end Sys2Proof
end

