-- ==== Sys2Proof/Machine/Params.lean ====
section
/-! DEFINITION. The values of the implementation parameters for this hardware (00_scope.md R4). -/

namespace Sys2Proof.Machine

/-- The document's values (00_scope.md R4; 92_eei_decisions.md D10 for `allowEmpty`, D15 for the
codes). Every operation of the model names a parameter through this one record. `tickBits`,
`byteBits` and `sampleMax` also fix the widths of the types `Tick` and `U8`. -/
def params : Config :=
  { tickBits := 32
    tickUnit := 1
    tSyncMark := 2400
    tSpace := 600
    tOneMark := 1200
    tZeroMark := 600
    tGuard := 20000
    tDebounce := 100
    tIdle := 21800
    qDiv := 10
    sampleMax := 255
    fifoCap := 200
    rawGap := 2000
    rawOne := 900
    byteBits := 8
    allowEmpty := true
    codeOk := 0
    codeMalformedCommand := 1
    codeBusBusy := 2
    codeHardwareUnavailable := 3 }

end Sys2Proof.Machine
end

