-- ==== Sys2Proof/Machine/Operands.lean ====
section
/-! DEFINITION. Operand forms and arithmetic: tick differences, quantisation, sample classes, bits of
a byte, the command string, and the wire symbols of a command. No state is read here. -/

namespace Sys2Proof.Machine

/-- `tdiff(a, b) = (a - b) mod 2^32`, unsigned (00_scope.md R5, decision D4). -/
def tdiff (a b : Tick) : Tick := a - b

/-- `quant(d) = min(SAMPLE_MAX, d div Q_DIV)` (00_scope.md R6, decision D5: the division rounds down). -/
def quant (d : Nat) : U8 := BitVec.ofNat 8 (min params.sampleMax (d / params.qDiv))

/-- `raw(s) = s * Q_DIV`, a natural number, so without overflow (00_scope.md R7). -/
def raw (s : U8) : Nat := s.toNat * params.qDiv

/-- The classes of a sample (30_encoding.md R51). -/
inductive SampleClass where
  | gap
  | one
  | zero
deriving DecidableEq, Repr

/-- The class of a sample: the gap test first, then the one/zero test, both strict
(30_encoding.md R51 and R62, 00_scope.md R8). -/
def classify (s : U8) : SampleClass :=
  if raw s > params.rawGap then .gap
  else if raw s > params.rawOne then .one
  else .zero

/-- `B[i] <- v`: replaces bit `i` of `b` and keeps the other bits (00_scope.md section 6.1). -/
def assignBit (b : U8) (i : Nat) (v : Bool) : U8 :=
  if v then b ||| (1#8 <<< i) else b &&& ~~~(1#8 <<< i)

/-- The bits of a byte in wire order, most significant first (20_memory.md R35). -/
def byteBits (b : U8) : List Bool :=
  [b.getLsbD 7, b.getLsbD 6, b.getLsbD 5, b.getLsbD 4,
   b.getLsbD 3, b.getLsbD 2, b.getLsbD 1, b.getLsbD 0]

/-- The value of a hexadecimal digit: `0`-`9`, `A`-`F`, `a`-`f` and nothing else
(30_encoding.md R54 and R55, decision D10). -/
def hexVal (c : Char) : Option Nat :=
  if 48 ≤ c.toNat ∧ c.toNat ≤ 57 then some (c.toNat - 48)
  else if 65 ≤ c.toNat ∧ c.toNat ≤ 70 then some (c.toNat - 55)
  else if 97 ≤ c.toNat ∧ c.toNat ≤ 102 then some (c.toNat - 87)
  else none

/-- Pairs of digits to bytes, the first digit of a pair the more significant (30_encoding.md R55,
20_memory.md R36); none for an odd length or a character that is no digit (30_encoding.md R54). -/
def hexPairs : List Char → Option (List U8)
  | [] => some []
  | [_] => none
  | hi :: lo :: rest =>
    match hexVal hi, hexVal lo, hexPairs rest with
    | some h, some l, some bs => some (BitVec.ofNat 8 (16 * h + l) :: bs)
    | _, _, _ => none

/-- `parse_hex(str)` (30_encoding.md R54; the empty string under `ALLOW_EMPTY`, decision D10). -/
def parseHex (str : List Char) : Option (List U8) :=
  if str = [] ∧ params.allowEmpty = false then none else hexPairs str

/-- The wire alphabet (30_encoding.md R47). -/
inductive Symbol where
  | sync
  | bit1
  | bit0
deriving DecidableEq, Repr

/-- A symbol's mark and space on the output pin (30_encoding.md R47). -/
def symbolSegments : Symbol → Waveform
  | .sync => [⟨.high, params.tSyncMark⟩, ⟨.low, params.tSpace⟩]
  | .bit1 => [⟨.high, params.tOneMark⟩, ⟨.low, params.tSpace⟩]
  | .bit0 => [⟨.high, params.tZeroMark⟩, ⟨.low, params.tSpace⟩]

/-- The symbol of a data bit (40_encoder.md R65). -/
def bitSymbol (v : Bool) : Symbol := if v then .bit1 else .bit0

/-- The symbols of a frame: one `SYNC`, then the bits of each byte in order (30_encoding.md R48). -/
def frameSymbols (bytes : List U8) : List Symbol :=
  .sync :: bytes.flatMap fun b => (byteBits b).map bitSymbol

/-- `ENCODE(bytes)` (40_encoder.md R65): the segments of the frame's symbols, and no guard segment
(90_conflicts.md C1). -/
def encodeBytes (bytes : List U8) : Waveform := (frameSymbols bytes).flatMap symbolSegments

/-- The sum of a waveform's segment durations (40_encoder.md R73). -/
def duration (w : Waveform) : Nat := (w.map Segment.duration).sum

/-- `level_at(w, e)`: the level of the segment whose half-open interval holds `e`
(40_encoder.md R74). From the end of the waveform on it is LOW, the level the pin rests at
(10_state.md R20); `TX_ADVANCE` asks only for `e` below the duration. -/
def levelAt : Waveform → Nat → PinLevel
  | [], _ => .low
  | seg :: rest, e => if e < seg.duration then seg.level else levelAt rest (e - seg.duration)

/-- The number of 1 bits of a command (40_encoder.md R66). -/
def onesOf (bytes : List U8) : Nat := (bytes.flatMap byteBits).count true

end Sys2Proof.Machine
end

