-- ==== Sys2Proof/Syntax.lean ====
section
/-! DEFINITION. The operations of the block: one constructor for each of the 17 rows of
spec/opcode_table.json (00_scope.md section 7, 30_encoding.md R62), and the decoder's reasons to
reject an input. -/

namespace Sys2Proof

/-- One row of spec/opcode_table.json each, in the table's order. -/
inductive Instr where
  /-- `SYNC`, start of frame (40_encoder.md R67). -/
  | sync
  /-- `BIT1`, data bit 1 (40_encoder.md R68). -/
  | bit1
  /-- `BIT0`, data bit 0 (40_encoder.md R69). -/
  | bit0
  /-- `S_GAP`, a sample of the gap class (43_decoder.md R112). -/
  | sGap (s : U8)
  /-- `S_ONE`, a sample of the one class (43_decoder.md R116). -/
  | sOne (s : U8)
  /-- `S_ZERO`, a sample of the zero class (43_decoder.md R117). -/
  | sZero (s : U8)
  /-- `EDGE_FALL`, an edge event with level LOW (41_edge_filter.md R88). -/
  | edgeFall (timestamp : Tick)
  /-- `EDGE_RISE`, an edge event with level HIGH (41_edge_filter.md R89). -/
  | edgeRise (timestamp : Tick)
  /-- `ENCODE(bytes)` (40_encoder.md R65). -/
  | encode (bytes : List U8)
  /-- `SEND(str)` performed at the tick `now` (40_encoder.md R76). -/
  | send (str : List Char) (now : Tick)
  /-- `TX_ADVANCE`, one microsecond passes (40_encoder.md R73). -/
  | txAdvance
  /-- `ON_EDGE(event)` (41_edge_filter.md R85). -/
  | onEdge (event : EdgeEvent)
  /-- `IS_IDLE(now)` (42_idle_detector.md R100). -/
  | isIdle (now : Tick)
  /-- `DEC_SAMPLE` (43_decoder.md R111). -/
  | decSample
  /-- `DEC_FLUSH(now)` (43_decoder.md R115). -/
  | decFlush (now : Tick)
  /-- `RESET` (70_reset_and_hazards.md R155). -/
  | reset
  /-- `HW_FAIL` (60_exceptions.md R134). -/
  | hwFail
deriving DecidableEq, Repr

/-- The format that spec/opcode_table.json gives the operation's row. -/
def instrFormat : Instr → Format
  | .sync => .wire
  | .bit1 => .wire
  | .bit0 => .wire
  | .sGap _ => .sample8
  | .sOne _ => .sample8
  | .sZero _ => .sample8
  | .edgeFall _ => .edge
  | .edgeRise _ => .edge
  | .encode _ => .op
  | .send _ _ => .op
  | .txAdvance => .op
  | .onEdge _ => .op
  | .isIdle _ => .op
  | .decSample => .op
  | .decFlush _ => .op
  | .reset => .op
  | .hwFail => .op

/-- Why the decoder rejects an input. -/
inductive DecodeError where
  /-- A pin waveform outside the alphabet of 30_encoding.md R47. -/
  | unknownSymbol
  /-- An operation name that is no `OP` row of the table. -/
  | unknownOperation
  /-- An `OP` row with operands of another shape than the row's. -/
  | wrongOperands
deriving DecidableEq, Repr

end Sys2Proof
end

