-- ==== Sys2Proof/Decode.lean ====
section
/-! DEFINITION. Decoding of raw inputs, total, rejecting by name; then the encoder, written from the
same tables (30_encoding.md R47, R51, R52, R53, R62; spec/opcode_table.json). -/

namespace Sys2Proof

/-- A wire symbol, by the pin waveform in units of 600 us: `SYNC` is 11110, `BIT1` is 110 and `BIT0`
is 10, first unit first (30_encoding.md R47 and R62). -/
def decodeWire (units : List Bool) : Except DecodeError Instr :=
  if units = [true, true, true, true, false] then .ok .sync
  else if units = [true, true, false] then .ok .bit1
  else if units = [true, false] then .ok .bit0
  else .error .unknownSymbol

/-- The class of a sample; every one of the 256 values has one (30_encoding.md R51, R62). -/
def decodeSample8 (s : U8) : Instr :=
  match Machine.classify s with
  | .gap => .sGap s
  | .one => .sOne s
  | .zero => .sZero s

/-- The kind of an edge event, by the level bit alone: bit 32 of the listing word, LOW = 0 and
HIGH = 1; bits 31..0 are the timestamp (30_encoding.md R53, R62; decision D17). -/
def decodeEdge (w : BitVec 33) : Instr :=
  if w.getLsbD 32 then .edgeRise (w.setWidth 32) else .edgeFall (w.setWidth 32)

/-- The names of the nine `OP` rows (spec/opcode_table.json). -/
def operationNames : List String :=
  ["ENCODE", "SEND", "TX_ADVANCE", "ON_EDGE", "IS_IDLE", "DEC_SAMPLE", "DEC_FLUSH", "RESET", "HW_FAIL"]

/-- An operation selected by name, with operands of the row's shape (30_encoding.md R62). -/
def decodeOp : String → OpArgs → Except DecodeError Instr
  | "ENCODE", .bytes bs => .ok (.encode bs)
  | "SEND", .command str now => .ok (.send str now)
  | "TX_ADVANCE", .nothing => .ok .txAdvance
  | "ON_EDGE", .event e => .ok (.onEdge e)
  | "IS_IDLE", .tick now => .ok (.isIdle now)
  | "DEC_SAMPLE", .nothing => .ok .decSample
  | "DEC_FLUSH", .tick now => .ok (.decFlush now)
  | "RESET", .nothing => .ok .reset
  | "HW_FAIL", .nothing => .ok .hwFail
  | name, _ => if name ∈ operationNames then .error .wrongOperands else .error .unknownOperation

/-- Decoding of a raw input by its carrier. -/
def decode : Word → Except DecodeError Instr
  | .wire units => decodeWire units
  | .sample8 s => .ok (decodeSample8 s)
  | .edge w => .ok (decodeEdge w)
  | .op name args => decodeOp name args

/-- The raw input of an operation (30_encoding.md R47, R51, R52, R62). -/
def encode : Instr → Word
  | .sync => .wire [true, true, true, true, false]
  | .bit1 => .wire [true, true, false]
  | .bit0 => .wire [true, false]
  | .sGap s => .sample8 s
  | .sOne s => .sample8 s
  | .sZero s => .sample8 s
  | .edgeFall t => .edge (0#1 ++ t)
  | .edgeRise t => .edge (1#1 ++ t)
  | .encode bs => .op "ENCODE" (.bytes bs)
  | .send str now => .op "SEND" (.command str now)
  | .txAdvance => .op "TX_ADVANCE" .nothing
  | .onEdge e => .op "ON_EDGE" (.event e)
  | .isIdle now => .op "IS_IDLE" (.tick now)
  | .decSample => .op "DEC_SAMPLE" .nothing
  | .decFlush now => .op "DEC_FLUSH" (.tick now)
  | .reset => .op "RESET" .nothing
  | .hwFail => .op "HW_FAIL" .nothing

/-- The low `n` bits of `w`, the most significant first. -/
def bitsMsb : Nat → Nat → List Bool
  | 0, _ => []
  | n + 1, w => w.testBit n :: bitsMsb n w

/-- The bits of the table on the carrier of the row they belong to. DESIGN CHOICE (assumption log 2):
the number of bits names the carrier. Fewer than 8 bits are a `WIRE` pattern. Eight bits are a
`WIRE` pattern where they are one of the three the table lists (30, 6 and 2, in a whole byte), and a
sample otherwise. 33 to 40 bits are an `EDGE` listing word if no bit above 32 is set. Anything else
is no carrier of the table and is presented as a wire pattern, which the decoder refuses. -/
def tableWord (nbits w : Nat) : Word :=
  if nbits < 8 then .wire (bitsMsb nbits w)
  else if nbits = 8 ∧ w < 256 then
    if w = 30 then .wire (bitsMsb 5 w)
    else if w = 6 then .wire (bitsMsb 3 w)
    else if w = 2 then .wire (bitsMsb 2 w)
    else .sample8 (BitVec.ofNat 8 w)
  else if 33 ≤ nbits ∧ nbits ≤ 40 ∧ w < 2 ^ 33 then .edge (BitVec.ofNat 33 w)
  else .wire (bitsMsb nbits w)

/-- The operation the decoder reads from an instruction of the table whose bits are `w`. -/
def decodeTableWord (nbits w : Nat) : Option Instr :=
  match decode (tableWord nbits w) with
  | .ok i => some i
  | .error _ => none

end Sys2Proof
end

