-- ==== Sys2Proof/Machine/State.lean ====
section
/-! DEFINITION. The state of the block, as plain data: the eleven fields of 10_state.md R10, the output
event stream (R22), and the model's own fields (assumption logs 1, 5, 6); reset; faults and refusals. -/

namespace Sys2Proof.Machine

/-- `tx_state` (10_state.md R17). -/
inductive TxState where
  /-- No waveform in flight and no guard running. -/
  | idle
  /-- A waveform is being played on the output pin. -/
  | playing
  /-- The waveform has completed and the 20 ms guard is running. -/
  | guard
deriving DecidableEq, Repr

/-- The outcome of one `SEND` (30_encoding.md R56 and R58). -/
inductive SendOutcome where
  | ok
  | malformedCommand
  | busBusy
deriving DecidableEq, Repr

/-- An event of the output stream (30_encoding.md R56). -/
inductive OutEvent where
  | byte (b : U8)
  | strayBitsDiscarded (n : Nat)
  | frameEnd
  | sendResult (r : SendOutcome)
deriving DecidableEq, Repr

/-- The four conditions of the block (60_exceptions.md R130). -/
inductive Condition where
  | malformedCommand
  | busBusy
  | strayBitsDiscarded (n : Nat)
  | hardwareUnavailable
deriving DecidableEq, Repr

/-- What the operation just performed handed back to its caller (the model's own, assumption log 6). -/
inductive OpResult where
  /-- The operation was performed and returns no value. -/
  | done
  /-- The operation had no step: the block is halted (10_state.md R21) or the decoder's operation is
  not enabled (43_decoder.md R110). -/
  | noStep
  /-- The optional sample of `ON_EDGE` (41_edge_filter.md R85 and R90). -/
  | sample (s : Option U8)
  /-- The answer of `IS_IDLE` (42_idle_detector.md R100). -/
  | idle (b : Bool)
  /-- The waveform of `ENCODE` (40_encoder.md R65). -/
  | waveform (w : Waveform)
deriving DecidableEq, Repr

/-- The state. -/
structure State where
  /-- `last_interrupt_tick` (10_state.md R11). -/
  lastInterruptTick : Tick
  /-- `last_falling_edge_tick` (10_state.md R12). -/
  lastFallingEdgeTick : Tick
  /-- `current_byte` (10_state.md R13). -/
  currentByte : U8
  /-- `current_bit_count` (10_state.md R14). -/
  currentBitCount : Nat
  /-- `partial_frame` (10_state.md R15). -/
  partialFrame : Bool
  /-- `q`, the sample queue, oldest first (10_state.md R16, 20_memory.md R30). -/
  q : List U8
  /-- `tx_state` (10_state.md R17). -/
  txState : TxState
  /-- `tx_wave` (10_state.md R18). -/
  txWave : Waveform
  /-- `tx_elapsed`, microseconds (10_state.md R19). -/
  txElapsed : Nat
  /-- `tx`, the level of the output pin (10_state.md R20). -/
  tx : PinLevel
  /-- `halted` (10_state.md R21). -/
  halted : Bool
  /-- The output event stream, oldest first: the observation (10_state.md R22). -/
  out : List OutEvent
  /-- The model's own: what the last operation handed back (assumption log 6). -/
  result : OpResult
  /-- The model's own: the variable `w` of `ENCODE`'s pseudocode (40_encoder.md R65; assumption log 6). -/
  building : Waveform
  /-- The model's own: the operations lined up, the next one first (the schedule of 10_state.md R23;
  assumption log 1). -/
  inbox : List Word
  /-- The model's own: how many free values have been drawn (assumption log 5). -/
  freeCount : Nat
deriving DecidableEq, Repr

/-- Faults: there is none. The block has no trap (60_exceptions.md R140), every condition of R130
leaves it running or halted, and both are next states. Safe: a step that never faults cannot hide a
behaviour of the block (assumption log 22). -/
inductive Fault where
deriving DecidableEq, Repr

/-- Refusals, raised by `step` alone. -/
inductive Refusal where
  /-- An operation whose meaning is not written; no arm of `exec` raises it in this model. Safe. -/
  | notModelled (mnemonic : String)
  /-- `step` met an input that is no operation of the table (30_encoding.md R59 e, R62). Safe: the
  model stops where the spec gives the input no meaning. -/
  | undecodable (reason : DecodeError)
deriving DecidableEq, Repr

/-- The block right after `RESET` (10_state.md R29, 70_reset_and_hazards.md R155), with nothing lined
up and the model's own fields at the values of assumption logs 1, 5 and 6. -/
def State.reset : State :=
  { lastInterruptTick := 0
    lastFallingEdgeTick := 0
    currentByte := 0
    currentBitCount := 0
    partialFrame := false
    q := []
    txState := .idle
    txWave := []
    txElapsed := 0
    tx := .low
    halted := false
    out := []
    result := .done
    building := []
    inbox := []
    freeCount := 0 }

end Sys2Proof.Machine
end

