-- ==== Sys2Proof/Machine/Flags.lean ====
section
/-! DEFINITION. The flags and predicates of the block (10_state.md R25): bus idle, transmit busy, the
decoder's enabling conditions, and the numeric codes of results and conditions. -/

namespace Sys2Proof.Machine

/-- `IS_IDLE(now)`: `tdiff(now, last_falling_edge_tick) > T_IDLE`, strict (42_idle_detector.md R100). -/
def isIdle (now : Tick) (s : State) : Bool :=
  decide ((tdiff now s.lastFallingEdgeTick).toNat > params.tIdle)

/-- "Transmit busy", the predicate `tx_state != TX_IDLE` (10_state.md R25). -/
def txBusy (s : State) : Bool := decide (s.txState ≠ .idle)

/-- The debounce test drops the event: `tdiff(timestamp, last_interrupt_tick) < T_DEBOUNCE`, strict
(41_edge_filter.md R86). It does not look at the level. -/
def bounces (t : Tick) (s : State) : Bool :=
  decide ((tdiff t s.lastInterruptTick).toNat < params.tDebounce)

/-- `DEC_SAMPLE` is enabled exactly when the queue is not empty and the block runs
(43_decoder.md R110). -/
def decSampleEnabled (s : State) : Bool := !s.halted && decide (0 < s.q.length)

/-- `DEC_FLUSH` is enabled exactly when the queue is empty, a terminator is owed, the bus is idle and
the block runs (43_decoder.md R110). -/
def decFlushEnabled (now : Tick) (s : State) : Bool :=
  !s.halted && decide (s.q = []) && s.partialFrame && isIdle now s

/-- The numeric code of a `SEND` outcome (30_encoding.md R58, decision D15). -/
def sendOutcomeCode : SendOutcome → Nat
  | .ok => params.codeOk
  | .malformedCommand => params.codeMalformedCommand
  | .busBusy => params.codeBusBusy

/-- The numeric code of a condition; `StrayBitsDiscarded` has none (60_exceptions.md R130). -/
def conditionCode : Condition → Option Nat
  | .malformedCommand => some params.codeMalformedCommand
  | .busBusy => some params.codeBusBusy
  | .strayBitsDiscarded _ => none
  | .hardwareUnavailable => some params.codeHardwareUnavailable

end Sys2Proof.Machine
end

