-- ==== Sys2Proof/Machine/Ops.lean ====
section
/-! DEFINITION. The named updates of the state, the queue's operations, and the raising of a condition.
The meanings are written over these. -/

namespace Sys2Proof.Machine

/-- What one operation answers. -/
abbrev Result := Host.Outcome State Fault Refusal

/-- The value an operation hands back to its caller. -/
def State.ret (s : State) (r : OpResult) : State := { s with result := r }

/-- `emit E` (00_scope.md section 6.2). -/
def State.emit (s : State) (e : OutEvent) : State := { s with out := s.out ++ [e] }

/-- The pin takes a free level: the block no longer controls it (93_implementation_defined.md U4). -/
def State.freePin (s : State) : State :=
  { s with tx := Config.freePinLevel s.freeCount, freeCount := s.freeCount + 1 }

/-- `halted <- true` (60_exceptions.md R134). -/
def State.halt (s : State) : State := { s with halted := true }

/-- `current_bit_count <- 0; current_byte <- 0` (43_decoder.md R111). -/
def State.clearAccumulator (s : State) : State := { s with currentBitCount := 0, currentByte := 0 }

/-- The data case before byte completion: `partial_frame` is set, the count is incremented and the
bit at `8 - current_bit_count` (new count) is assigned (43_decoder.md R113). -/
def State.storeBit (s : State) (v : Bool) : State :=
  { s with
    partialFrame := true
    currentBitCount := s.currentBitCount + 1
    currentByte := assignBit s.currentByte (params.byteBits - (s.currentBitCount + 1)) v }

/-- `partial_frame <- false` (43_decoder.md R115). -/
def State.clearPartial (s : State) : State := { s with partialFrame := false }

/-- `QPush(v)` on the list alone: evict the oldest entry of a full queue, then append
(20_memory.md R31). -/
def qPush (q : List U8) (v : U8) : List U8 :=
  (if q.length = params.fifoCap then q.tail else q) ++ [v]

/-- `QPop()` on the list alone, defined only when it is not empty (20_memory.md R32). -/
def qPop : List U8 → Option (U8 × List U8)
  | [] => none
  | v :: rest => some (v, rest)

/-- `len(q) <= FIFO_CAP`, the form every reachable queue has (10_state.md R16, R28). -/
def queueWf (q : List U8) : Bool := decide (q.length ≤ params.fifoCap)

/-- `QPush(v)` (20_memory.md R31). -/
def State.pushSample (s : State) (v : U8) : State := { s with q := qPush s.q v }

/-- What `QPop()` leaves of the queue (20_memory.md R32). -/
def State.withQueue (s : State) (q : List U8) : State := { s with q := q }

/-- `last_interrupt_tick <- t` (41_edge_filter.md R87). -/
def State.acceptEdge (s : State) (t : Tick) : State := { s with lastInterruptTick := t }

/-- `last_falling_edge_tick <- t` (41_edge_filter.md R88). -/
def State.noteFall (s : State) (t : Tick) : State := { s with lastFallingEdgeTick := t }

/-- `SEND` step 3: the waveform is latched and starts (40_encoder.md R72). -/
def State.startWaveform (s : State) (w : Waveform) : State :=
  { s with txWave := w, txElapsed := 0, txState := .playing, tx := .high }

/-- `tx_elapsed <- tx_elapsed + 1` (40_encoder.md R73). -/
def State.countMicrosecond (s : State) : State := { s with txElapsed := s.txElapsed + 1 }

/-- `tx <- l` (40_encoder.md R73). -/
def State.drivePin (s : State) (l : PinLevel) : State := { s with tx := l }

/-- `tx_state <- TX_GUARD; tx <- LOW` (40_encoder.md R73). -/
def State.enterGuard (s : State) : State := { s with txState := .guard, tx := .low }

/-- `tx_state <- TX_IDLE; tx_wave <- []; tx_elapsed <- 0` (40_encoder.md R73). -/
def State.finishSend (s : State) : State := { s with txState := .idle, txWave := [], txElapsed := 0 }

/-- `w <- w ++ [..]` of `ENCODE`'s pseudocode (40_encoder.md R65, R67 to R69). -/
def State.extendBuilding (s : State) (w : Waveform) : State := { s with building := s.building ++ w }

/-- `w <- ..` of `ENCODE`'s pseudocode (40_encoder.md R65). -/
def State.setBuilding (s : State) (w : Waveform) : State := { s with building := w }

/-- The operations that are still lined up (assumption log 1). -/
def State.withInbox (s : State) (ws : List Word) : State := { s with inbox := ws }

/-- Raising a condition, the one shared operation (60_exceptions.md R130 to R134, R140): nothing is
saved, no handler is entered and nothing returns.
`MalformedCommand` and `BusBusy` answer the caller and change no state (R131, R132).
`StrayBitsDiscarded(n)` reports the number and zeroes count and byte (R133).
`HardwareUnavailable` halts the block, and the pin is free from then on (R134). -/
def raise (c : Condition) (s : State) : State :=
  match c with
  | .malformedCommand => s.emit (.sendResult .malformedCommand)
  | .busBusy => s.emit (.sendResult .busBusy)
  | .strayBitsDiscarded n => (s.emit (.strayBitsDiscarded n)).clearAccumulator
  | .hardwareUnavailable => s.halt.freePin

/-- Every operation is gated by `halted` (10_state.md R10 and R21: "no operation of the block has a
step"): a halted block has no step, an operation of a running block is performed. -/
def whileRunning (s : State) (op : State → State) : Result :=
  .next (if s.halted then s.ret .noStep else op s)

end Sys2Proof.Machine
end

