-- ==== Sys2Proof/Machine/EdgeFilter.lean ====
section
/-! DEFINITION. The Edge Event Filter: `ON_EDGE` and its two edge kinds (41_edge_filter.md). -/

namespace Sys2Proof.Machine

/-- The falling case of an accepted event (41_edge_filter.md R88). -/
def fallCase (t : Tick) (s : State) : State := (s.noteFall t).ret (.sample none)

/-- The rising case of an accepted event: the LOW period is measured from the last accepted falling
edge, quantised, queued and handed back (41_edge_filter.md R89, R90). -/
def riseCase (t : Tick) (s : State) : State :=
  (s.pushSample (quant (tdiff t s.lastFallingEdgeTick).toNat)).ret
    (.sample (some (quant (tdiff t s.lastFallingEdgeTick).toNat)))

/-- The debounce: a bouncing event changes nothing and gives no sample (41_edge_filter.md R86); any
other is accepted, which first writes `last_interrupt_tick` (R87), and then its case runs. -/
def debounced (t : Tick) (case : State → State) (s : State) : State :=
  if bounces t s then s.ret (.sample none) else case (s.acceptEdge t)

/-- An edge event of level LOW (41_edge_filter.md R86 to R88). -/
def execEdgeFall (t : Tick) (s : State) : Result := whileRunning s (debounced t (fallCase t))

/-- An edge event of level HIGH (41_edge_filter.md R86, R87, R89). -/
def execEdgeRise (t : Tick) (s : State) : Result := whileRunning s (debounced t (riseCase t))

/-- The case of an accepted event, by its level alone (30_encoding.md R53). -/
def edgeCase (e : EdgeEvent) (s : State) : State :=
  match e.level with
  | .low => fallCase e.timestamp s
  | .high => riseCase e.timestamp s

/-- `ON_EDGE(event)` (41_edge_filter.md R85). -/
def execOnEdge (e : EdgeEvent) (s : State) : Result :=
  whileRunning s (debounced e.timestamp (edgeCase e))

end Sys2Proof.Machine
end

