-- ==== Sys2Proof/Machine/Encoder.lean ====
section
/-! DEFINITION. The Pulse Encoder: the three wire symbols and `ENCODE` (40_encoder.md sections 1, 2). -/

namespace Sys2Proof.Machine

/-- A symbol's effect: it appends its mark and space to the waveform (40_encoder.md R67 to R69). -/
def appendSymbol (x : Symbol) (s : State) : State := (s.extendBuilding (symbolSegments x)).ret .done

/-- `SYNC` (40_encoder.md R67). -/
def execSync (s : State) : Result := whileRunning s (appendSymbol .sync)

/-- `BIT1` (40_encoder.md R68). -/
def execBit1 (s : State) : Result := whileRunning s (appendSymbol .bit1)

/-- `BIT0` (40_encoder.md R69). -/
def execBit0 (s : State) : Result := whileRunning s (appendSymbol .bit0)

/-- `ENCODE(bytes)` (40_encoder.md R65): hands the waveform back; none of the block's eleven fields is
read or written but `halted`. `building` is the variable `w` of its pseudocode. -/
def execEncode (bytes : List U8) (s : State) : Result :=
  whileRunning s fun s => (s.setBuilding (encodeBytes bytes)).ret (.waveform (encodeBytes bytes))

end Sys2Proof.Machine
end

