-- ==== Sys2Proof/Machine/IdleDetector.lean ====
section
/-! DEFINITION. The Bus Idle Detector: `IS_IDLE` (42_idle_detector.md). -/

namespace Sys2Proof.Machine

/-- `IS_IDLE(now)` (42_idle_detector.md R100): it hands the answer back and writes nothing (R101). -/
def execIsIdle (now : Tick) (s : State) : Result :=
  whileRunning s fun s => s.ret (.idle (isIdle now s))

end Sys2Proof.Machine
end

