-- ==== Sys2Proof/Machine/PulseDecoder.lean ====
section
/-! DEFINITION. The Pulse Decoder: `DEC_SAMPLE` with its three sample classes, and `DEC_FLUSH`
(43_decoder.md). -/

namespace Sys2Proof.Machine

/-- Bits of a byte in progress are reported and thrown away (43_decoder.md R111 and R115,
60_exceptions.md R133). -/
def discardStrayBits (s : State) : State := raise (.strayBitsDiscarded s.currentBitCount) s

/-- Case `S_GAP`: a frame in progress with bits accumulated is reported; count and byte are zeroed in
every case (decision D13); `partial_frame` is kept (43_decoder.md R112). -/
def gapCase (s : State) : State :=
  (if s.partialFrame = true ∧ s.currentBitCount ≠ 0 then discardStrayBits s else s).clearAccumulator.ret .done

/-- Byte completion: at the eighth bit the byte is emitted and count and byte are zeroed;
`partial_frame` stays (43_decoder.md R114). -/
def completeByte (s : State) : State :=
  if s.currentBitCount = params.byteBits then (s.emit (.byte s.currentByte)).clearAccumulator else s

/-- Case data bit, with the bit value `v` (43_decoder.md R113). -/
def dataCase (v : Bool) (s : State) : State := (completeByte (s.storeBit v)).ret .done

/-- `S_GAP` (43_decoder.md R112): the row selects the case; the sample's value is not used. -/
def execSGap (_sample : U8) (s : State) : Result := whileRunning s gapCase

/-- `S_ONE`, the data case with bit value 1 (43_decoder.md R116). -/
def execSOne (_sample : U8) (s : State) : Result := whileRunning s (dataCase true)

/-- `S_ZERO`, the data case with bit value 0 (43_decoder.md R117). -/
def execSZero (_sample : U8) (s : State) : Result := whileRunning s (dataCase false)

/-- Steps 1 to 4 of the decoder's loop on one popped sample (43_decoder.md R111). -/
def processSample (v : U8) (s : State) : State :=
  match classify v with
  | .gap => gapCase s
  | .one => dataCase true s
  | .zero => dataCase false s

/-- `DEC_SAMPLE` in a running block: with an empty queue it is not enabled and has no step
(43_decoder.md R110, R111). -/
def decodeNext (s : State) : State :=
  match qPop s.q with
  | none => s.ret .noStep
  | some (v, rest) => processSample v (s.withQueue rest)

/-- `DEC_SAMPLE` (43_decoder.md R111). -/
def execDecSample (s : State) : Result := whileRunning s decodeNext

/-- The action of `DEC_FLUSH`: stray bits are reported and zeroed (decision D12), the frame terminator
is emitted and `partial_frame` is cleared (decision D11; 43_decoder.md R115). -/
def flushFrame (s : State) : State :=
  (((if s.currentBitCount ≠ 0 then discardStrayBits s else s).emit .frameEnd).clearPartial).ret .done

/-- `DEC_FLUSH(now)` (43_decoder.md R115): where it is not enabled it has no step (R110). -/
def execDecFlush (now : Tick) (s : State) : Result :=
  whileRunning s fun s => if decFlushEnabled now s then flushFrame s else s.ret .noStep

end Sys2Proof.Machine
end

