-- ==== Sys2Proof/Machine/System.lean ====
section
/-! DEFINITION. `RESET` (70_reset_and_hazards.md R155) and `HW_FAIL` (60_exceptions.md R134). -/

namespace Sys2Proof.Machine

/-- `RESET`: every field of the block to its reset value, the output event stream empty; it is the
only way out of `halted` and works at any time (70_reset_and_hazards.md R155 and R156, decision D23).
The operations lined up and the draws of free values belong to the environment and stay
(assumption log 10). -/
def execReset (s : State) : Result :=
  .next { State.reset with inbox := s.inbox, freeCount := s.freeCount }

/-- `HW_FAIL`: the condition `HardwareUnavailable` is raised (60_exceptions.md R134). -/
def execHwFail (s : State) : Result :=
  whileRunning s fun s => (raise .hardwareUnavailable s).ret .done

end Sys2Proof.Machine
end

