-- ==== Sys2Proof/Machine/Transmit.lean ====
section
/-! DEFINITION. The transmit path: `SEND` and `TX_ADVANCE` (40_encoder.md sections 3 to 6). -/

namespace Sys2Proof.Machine

/-- `SEND(str)` at tick `now` in a running block (40_encoder.md R70, R71, R72, R76): parse, then the
busy gate, then acceptance, in this order (decision D9). -/
def sendCommand (str : List Char) (now : Tick) (s : State) : State :=
  match parseHex str with
  | none => raise .malformedCommand s
  | some bytes =>
    if txBusy s || !isIdle now s then raise .busBusy s
    else s.startWaveform (encodeBytes bytes)

/-- `SEND` (40_encoder.md R76). -/
def execSend (str : List Char) (now : Tick) (s : State) : Result :=
  whileRunning s fun s => (sendCommand str now s).ret .done

/-- The pin and the end of the waveform, after the microsecond has been counted (40_encoder.md R73,
R74). -/
def playStep (s : State) : State :=
  if s.txState = .playing then
    if s.txElapsed < duration s.txWave then s.drivePin (levelAt s.txWave s.txElapsed)
    else s.enterGuard
  else s

/-- The end of the guard (40_encoder.md R73, R75). -/
def guardStep (s : State) : State :=
  if s.txState = .guard ∧ s.txElapsed ≥ duration s.txWave + params.tGuard then
    s.finishSend.emit (.sendResult .ok)
  else s

/-- `TX_ADVANCE` in a running block (40_encoder.md R73). -/
def advanceMicrosecond (s : State) : State :=
  if s.txState = .idle then s else guardStep (playStep s.countMicrosecond)

/-- `TX_ADVANCE` (40_encoder.md R73). In a halted block it has no step, but the microsecond passes and
the pin, which the block no longer controls, may have any level afterwards (60_exceptions.md R134,
93_implementation_defined.md U4; assumption log 5). -/
def execTxAdvance (s : State) : Result :=
  .next (if s.halted then s.freePin.ret .noStep else (advanceMicrosecond s).ret .done)

end Sys2Proof.Machine
end

