-- ==== Sys2Proof/Machine/Dispatch.lean ====
section
/-! DEFINITION. The dispatch: one arm per row of spec/opcode_table.json. -/

namespace Sys2Proof.Machine

def exec (i : Instr) (s : State) : Host.Outcome State Fault Refusal :=
  match i with
  | .sync => Sys2Proof.Machine.execSync s
  | .bit1 => Sys2Proof.Machine.execBit1 s
  | .bit0 => Sys2Proof.Machine.execBit0 s
  | .sGap v => Sys2Proof.Machine.execSGap v s
  | .sOne v => Sys2Proof.Machine.execSOne v s
  | .sZero v => Sys2Proof.Machine.execSZero v s
  | .edgeFall t => Sys2Proof.Machine.execEdgeFall t s
  | .edgeRise t => Sys2Proof.Machine.execEdgeRise t s
  | .encode bytes => Sys2Proof.Machine.execEncode bytes s
  | .send str now => Sys2Proof.Machine.execSend str now s
  | .txAdvance => Sys2Proof.Machine.execTxAdvance s
  | .onEdge e => Sys2Proof.Machine.execOnEdge e s
  | .isIdle now => Sys2Proof.Machine.execIsIdle now s
  | .decSample => Sys2Proof.Machine.execDecSample s
  | .decFlush now => Sys2Proof.Machine.execDecFlush now s
  | .reset => Sys2Proof.Machine.execReset s
  | .hwFail => Sys2Proof.Machine.execHwFail s

end Sys2Proof.Machine
end

