-- ==== Sys2Proof/Machine/Step.lean ====
section
/-! DEFINITION. One step of the machine: the next operation lined up is decoded and performed. -/

namespace Sys2Proof.Machine

/-- One step (20_memory.md R38 and R41, assumption log 1). With nothing lined up no agent performs a
step and the block waits (60_exceptions.md R151). Otherwise the first input is taken and the operation
it decodes to is performed; an input that is no operation of the table is refused. -/
def step (s : State) : Host.Outcome State Fault Refusal :=
  match s.inbox with
  | [] => .next s
  | w :: rest =>
    match decode w with
    | .ok i => exec i (s.withInbox rest)
    | .error e => .refused (.undecodable e)

/-- The instruction of the table with bits `w`, put where `step` takes its next operation. -/
def State.withFetchWord (s : State) (nbits w : Nat) : State :=
  s.withInbox (tableWord nbits w :: s.inbox)

end Sys2Proof.Machine
end

