-- ==== Sys2Proof/Machine/Boundary.lean ====
section
/-! DEFINITION. The bus as seen through the hardware boundary: what a pin waveform does on the bus
(30_encoding.md R46 and R49), as the edge events a boundary without latency delivers
(60_exceptions.md R147; 93_implementation_defined.md U11 and U12: `LOOPBACK`, no other driver). -/

namespace Sys2Proof.Machine

/-- The inverting driver: pin HIGH pulls the bus LOW, pin LOW releases it HIGH
(30_encoding.md R46, decision D1). -/
def busLevel : PinLevel → LineLevel
  | .high => .low
  | .low => .high

/-- The edge event, if any, of the pin going from one level to another at tick `t`. -/
def busTransition (before after : PinLevel) (t : Tick) : List EdgeEvent :=
  if before = after then [] else [⟨busLevel after, t⟩]

/-- The bus transitions of a waveform that starts at tick `t` with the pin at level `before`; each
segment takes its level at its start (40_encoder.md R74). -/
def busEdgesFrom (before : PinLevel) : Waveform → Tick → List EdgeEvent
  | [], _ => []
  | seg :: rest, t =>
    busTransition before seg.level t ++
      busEdgesFrom seg.level rest (t + BitVec.ofNat 32 seg.duration)

/-- The bus transitions of a waveform accepted at tick `t0`: the pin rests LOW before it
(10_state.md R20). -/
def busEdges (w : Waveform) (t0 : Tick) : List EdgeEvent := busEdgesFrom .low w t0

/-- The LOW periods of the bus are the marks of the waveform (30_encoding.md R46). -/
def lowPeriods (w : Waveform) : List Nat :=
  (w.filter fun seg => seg.level = .high).map Segment.duration

/-- The samples a frame produces at a receiver (30_encoding.md R49). -/
def frameSamples (bytes : List U8) : List U8 := (lowPeriods (encodeBytes bytes)).map quant

end Sys2Proof.Machine
end

