-- ==== Sys2Proof/Machine/Output.lean ====
section
/-! DEFINITION. The text rendering of decoder events (30_encoding.md R57, decision D16). -/

namespace Sys2Proof.Machine

/-- An uppercase hexadecimal digit (30_encoding.md R57). -/
def hexDigit (n : Nat) : Char := if n < 10 then Char.ofNat (48 + n) else Char.ofNat (55 + n)

/-- The text of one event: a byte is two uppercase digits, the first the more significant
(20_memory.md R36), the frame terminator is U+000A, the notice's text is a free value (U9), and a
`SendResult` is no decoder event and prints nothing. -/
def renderEvent : OutEvent → List Char
  | .byte b => [hexDigit (b.toNat / 16), hexDigit (b.toNat % 16)]
  | .strayBitsDiscarded n => Config.noticeText n
  | .frameEnd => [Char.ofNat 10]
  | .sendResult _ => []

/-- The text of a stretch of the output stream, concatenated with no separator (30_encoding.md R57). -/
def renderText (events : List OutEvent) : List Char := events.flatMap renderEvent

end Sys2Proof.Machine
end

