-- ==== Sys2Proof/Safety.lean ====
section
/-! DEFINITION. The terms in which claims are made: the invariant of 10_state.md R28, a quiescent state
(70_reset_and_hazards.md R175), several operations in a row, and an orderly environment (R159). -/

namespace Sys2Proof.Machine

/-- The invariant of 10_state.md R28, with what R17 to R20 say of the sequencer beside it. The two
clauses about the pin are for a block that is not halted: after `HW_FAIL` the pin has any level
(93_implementation_defined.md U4). -/
structure Inv (s : State) : Prop where
  queueBounded : queueWf s.q = true
  countBelowByte : s.currentBitCount < params.byteBits
  bitsArePartial : s.currentBitCount ≠ 0 → s.partialFrame = true
  lowBitsZero : ∀ i, i < params.byteBits - s.currentBitCount → s.currentByte.getLsbD i = false
  idleHoldsNothing : s.txState = .idle → s.txWave = [] ∧ s.txElapsed = 0
  idlePinLow : s.txState = .idle → s.halted = false → s.tx = .low
  inFlight : s.txState ≠ .idle →
    (∃ bytes, s.txWave = encodeBytes bytes) ∧ s.txElapsed < duration s.txWave + params.tGuard
  playingBeforeEnd : s.txState = .playing → s.txElapsed < duration s.txWave
  playingPin : s.txState = .playing → s.halted = false → s.tx = levelAt s.txWave s.txElapsed
  guardAfterEnd : s.txState = .guard → duration s.txWave ≤ s.txElapsed
  guardPinLow : s.txState = .guard → s.halted = false → s.tx = .low

/-- A quiescent state (70_reset_and_hazards.md R175): nothing is waiting in the boundary or lined up,
the queue is empty, no terminator is owed, the sequencer is idle (so no `SEND` is outstanding) and the
block runs. -/
def quiescent (s : State) : Bool :=
  decide (s.inbox = []) && decide (s.q = []) && !s.partialFrame && decide (s.txState = .idle) && !s.halted

/-- Several operations, one after the other, stopping at the first stop (20_memory.md R41). -/
def performAll : List Instr → State → Result
  | [], s => .next s
  | i :: rest, s =>
    match exec i s with
    | .next s' => performAll rest s'
    | .fault f => .fault f
    | .refused r => .refused r

/-- No `DEC_FLUSH` among the operations is enabled where it is offered (43_decoder.md R110): on a bus that
is not idle, with samples waiting, or with no terminator owed it is not. -/
def noFlushFires : List Instr → State → Bool
  | [], _ => true
  | i :: rest, s =>
    (match i with
      | .decFlush now => !decFlushEnabled now s
      | _ => true) &&
    match exec i s with
    | .next s' => noFlushFires rest s'
    | .fault _ => true
    | .refused _ => true

/-- The microseconds that pass in a list of operations (92_eei_decisions.md D2). -/
def microseconds (ops : List Instr) : Nat := ops.count .txAdvance

/-- The operations that end a waveform before its time: there are only these two
(40_encoder.md R77, 70_reset_and_hazards.md R156). -/
def endsBlock : Instr → Bool
  | .reset => true
  | .hwFail => true
  | _ => false

/-- The steps of the transmit path (60_exceptions.md R145). -/
def isTransmitOp : Instr → Bool
  | .send _ _ => true
  | .txAdvance => true
  | _ => false

/-- The steps of the Edge Event Filter (60_exceptions.md R145): `ON_EDGE` and its two kinds. -/
def isFilterOp : Instr → Bool
  | .onEdge _ => true
  | .edgeFall _ => true
  | .edgeRise _ => true
  | _ => false

/-- The steps of the Pulse Decoder (60_exceptions.md R145): `DEC_SAMPLE`, its three classes and
`DEC_FLUSH`. -/
def isDecoderOp : Instr → Bool
  | .decSample => true
  | .sGap _ => true
  | .sOne _ => true
  | .sZero _ => true
  | .decFlush _ => true
  | _ => false

/-- The three sample-class rows, when performed as operations of their own (assumption log 7). -/
def isClassRow : Instr → Bool
  | .sGap _ => true
  | .sOne _ => true
  | .sZero _ => true
  | _ => false

/-- The events that the decoder emits (30_encoding.md R56). -/
def isDecoderEvent : OutEvent → Bool
  | .byte _ => true
  | .strayBitsDiscarded _ => true
  | .frameEnd => true
  | .sendResult _ => false

/-- Two states agree on all that the receive path reads, writes and emits: TimingState, DecoderState,
the queue, `halted` and the decoder's events (10_state.md R24). -/
def sameReceive (s t : State) : Prop :=
  s.lastInterruptTick = t.lastInterruptTick ∧ s.lastFallingEdgeTick = t.lastFallingEdgeTick ∧
    s.currentByte = t.currentByte ∧ s.currentBitCount = t.currentBitCount ∧
    s.partialFrame = t.partialFrame ∧ s.q = t.q ∧ s.halted = t.halted ∧
    s.out.filter isDecoderEvent = t.out.filter isDecoderEvent

/-- Two states agree on all that the transmit path reads, writes and emits: the four transmit fields,
TimingState, `halted`, the draws of free pin levels and the `SendResult` events (40_encoder.md R79). -/
def sameTransmit (s t : State) : Prop :=
  s.txState = t.txState ∧ s.txWave = t.txWave ∧ s.txElapsed = t.txElapsed ∧ s.tx = t.tx ∧
    s.lastInterruptTick = t.lastInterruptTick ∧ s.lastFallingEdgeTick = t.lastFallingEdgeTick ∧
    s.halted = t.halted ∧ s.freeCount = t.freeCount ∧
    s.out.filter (fun e => !isDecoderEvent e) = t.out.filter (fun e => !isDecoderEvent e)

/-- An orderly environment (70_reset_and_hazards.md R159 a, b): `Orderly T e ops T'` says that `ops`
start at real time `T` (microseconds since the tick counter was 0) and end at `T'`, that time passes by
`TX_ADVANCE` alone, that every `now` is the counter's value at its step, and that edge events carry the
counter's values at real times that do not decrease from the last one (`e`) and are not in the future
(any finite delivery delay is allowed). -/
inductive Orderly : Nat → Nat → List Instr → Nat → Prop where
  | nil {T e} : Orderly T e [] T
  | advance {T e ops T'} (h : Orderly (T + 1) e ops T') : Orderly T e (.txAdvance :: ops) T'
  | send {T e str ops T'} (h : Orderly T e ops T') :
      Orderly T e (.send str (BitVec.ofNat 32 T) :: ops) T'
  | isIdle {T e ops T'} (h : Orderly T e ops T') : Orderly T e (.isIdle (BitVec.ofNat 32 T) :: ops) T'
  | decSample {T e ops T'} (h : Orderly T e ops T') : Orderly T e (.decSample :: ops) T'
  | decFlush {T e ops T'} (h : Orderly T e ops T') :
      Orderly T e (.decFlush (BitVec.ofNat 32 T) :: ops) T'
  | edge {T e r level ops T'} (h₁ : e ≤ r) (h₂ : r ≤ T) (h : Orderly T r ops T') :
      Orderly T e (.onEdge ⟨level, BitVec.ofNat 32 r⟩ :: ops) T'

end Sys2Proof.Machine
end

