-- ==== Sys2Proof/WellFormed.lean ====
section
/-! DEFINITION. Well-formed operations: a sample class is given a sample of its own range. The ranges
are the `s_min..s_max` columns of 30_encoding.md R51 and spec/opcode_table.json, written
independently of the thresholds that the decoder uses. Every other operand ranges over its whole type. -/

namespace Sys2Proof

/-- The check (30_encoding.md R51). -/
def Instr.wellFormed : Instr → Bool
  | .sync => true
  | .bit1 => true
  | .bit0 => true
  | .sGap s => decide (201 ≤ s.toNat)
  | .sOne s => decide (91 ≤ s.toNat) && decide (s.toNat ≤ 200)
  | .sZero s => decide (s.toNat ≤ 90)
  | .edgeFall _ => true
  | .edgeRise _ => true
  | .encode _ => true
  | .send _ _ => true
  | .txAdvance => true
  | .onEdge _ => true
  | .isIdle _ => true
  | .decSample => true
  | .decFlush _ => true
  | .reset => true
  | .hwFail => true

end Sys2Proof
end

