-- ==== Sys2Proof/Certificates/Slice0/Obligations.lean ====
section
/-! DEFINITION. The statements for the provers. `result`, `building`, `inbox` and `freeCount` are the
model's own fields (assumption logs 1, 5, 6); where a statement says `∃ r, … result := r …` it leaves
the model's own answer open. -/

open Sys2Proof Sys2Proof.Machine

/-! ### Step, decoding, encoding -/

/-- A step performs the operation that the first input lined up decodes to, refuses an input that
decodes to none, and waits when nothing is lined up. The lining up is the model's choice (assumption
log 1); 20_memory.md R38 and R41 ask for one atomic step of one agent at a time. -/
def Obligations.StepPerformsTheDecodedOperation : Prop :=
  ∀ s : State,
    (s.inbox = [] → step s = .next s) ∧
    (∀ w rest, s.inbox = w :: rest →
      (∀ i, decode w = .ok i → step s = exec i { s with inbox := rest }) ∧
      (∀ e, decode w = .error e → step s = .refused (.undecodable e))) ∧
    (∀ nbits w i, decodeTableWord nbits w = some i → step (s.withFetchWord nbits w) = exec i s)

/-- Words written out from 30_encoding.md R47, R51, R52, R53 and R62 decode to their operations (level
bits: decision D17). That a pin waveform, or a name with operands, is a raw input that is decoded is
the model's choice (assumption log 2): by R62 the block decodes no pin waveform and an `OP` row has no
bits. -/
def Obligations.ListedWordsDecode : Prop :=
  decode (.wire [true, true, true, true, false]) = .ok .sync ∧
  decode (.wire [true, true, false]) = .ok .bit1 ∧
  decode (.wire [true, false]) = .ok .bit0 ∧
  decode (.sample8 0b11001001#8) = .ok (.sGap 201) ∧
  decode (.sample8 0b11001000#8) = .ok (.sOne 200) ∧
  decode (.sample8 0b01011011#8) = .ok (.sOne 91) ∧
  decode (.sample8 0b01011010#8) = .ok (.sZero 90) ∧
  decode (.edge 0b000000000000000000000101010111100#33) = .ok (.edgeFall 2748) ∧
  decode (.edge 0b110000000000000000000101010111100#33) = .ok (.edgeRise 2147486396) ∧
  decode (.op "SEND" (.command ['A', '5'] 7)) = .ok (.send ['A', '5'] 7) ∧
  decode (.op "DEC_SAMPLE" .nothing) = .ok .decSample

/-- Decoding the encoding of a well-formed operation gives it back, with every operand (30_encoding.md
R47, R51, R53, R62). -/
def Obligations.DecodeInvertsEncode : Prop :=
  ∀ i : Instr, i.wellFormed = true → decode (encode i) = .ok i

/-- The other direction: what decodes is well formed and is the encoding of what it decodes to, and
exactly the words that encode nothing are rejected. -/
def Obligations.DecodeIsExact : Prop :=
  ∀ w : Word,
    (∀ i, decode w = .ok i → i.wellFormed = true ∧ encode i = w) ∧
    ((∃ e, decode w = .error e) ↔ ∀ i : Instr, i.wellFormed = true → encode i ≠ w)

/-- The inputs lined up run as the list of operations they encode. The lining up is the model's choice
(assumption log 1). -/
def Obligations.LinedUpOperationsRunInOrder : Prop :=
  ∀ (ops : List Instr) (rest : List Word) (s : State), (∀ i ∈ ops, i.wellFormed = true) →
    Host.Core.run Sys2Proof.core ops.length { s with inbox := ops.map encode ++ rest } =
      performAll ops { s with inbox := rest }

/-! ### Arithmetic and encodings -/

/-- 00_scope.md R5 with decision D4: unsigned, modulo 2^32, and exact up to aliasing in real time. -/
def Obligations.TickDifferenceIsModular : Prop :=
  (∀ a b : Tick, (tdiff a b).toNat = (a.toNat + 2 ^ 32 - b.toNat) % 2 ^ 32) ∧
  (∀ u v : Nat, u ≤ v → (tdiff (BitVec.ofNat 32 v) (BitVec.ofNat 32 u)).toNat = (v - u) % 2 ^ 32)

/-- 00_scope.md R7, whole: dequantisation is exact, fits 12 bits, and never exceeds the duration. -/
def Obligations.DequantisedValueNeverExceedsDuration : Prop :=
  (∀ s : U8, raw s = s.toNat * 10 ∧ raw s ≤ 2550 ∧ raw s % 10 = 0 ∧ raw s < 2 ^ 12) ∧
  (∀ d : Nat, raw (quant d) ≤ d ∧ (raw (quant d) = d ↔ d % 10 = 0 ∧ d ≤ 2550))

/-- 30_encoding.md R51: the three classes by `raw`, by sample and by duration of the LOW period; the
sample and duration columns are the spec's derivation, over decision D5 (rounding down). -/
def Obligations.SampleClassesPartition : Prop :=
  (∀ s : U8,
    (classify s = .gap ↔ 10 * s.toNat > 2000) ∧ (classify s = .gap ↔ 201 ≤ s.toNat) ∧
    (classify s = .one ↔ 900 < 10 * s.toNat ∧ 10 * s.toNat ≤ 2000) ∧
    (classify s = .one ↔ 91 ≤ s.toNat ∧ s.toNat ≤ 200) ∧
    (classify s = .zero ↔ 10 * s.toNat ≤ 900) ∧ (classify s = .zero ↔ s.toNat ≤ 90)) ∧
  (∀ d : Nat,
    (classify (quant d) = .gap ↔ 2010 ≤ d) ∧
    (classify (quant d) = .one ↔ 910 ≤ d ∧ d ≤ 2009) ∧
    (classify (quant d) = .zero ↔ d ≤ 909))

/-- 30_encoding.md R54 and R55 with decision D10 (both letter cases, no separators, empty string
allowed): the value of each of the 22 digits, which strings fail, and the bytes of the others. The digit
values and the nibble order are marked general knowledge in the spec (assumption log 17). -/
def Obligations.CommandStringParses : Prop :=
  (∀ (c : Char) (n : Nat), hexVal c = some n ↔
    "0123456789ABCDEF".toList[n]? = some c ∨ "0123456789abcdef".toList[n]? = some c) ∧
  (∀ c : Char, hexVal c ≠ none ↔ c ∈ "0123456789ABCDEFabcdef".toList) ∧
  (∀ str, parseHex str = none ↔ str.length % 2 = 1 ∨ ∃ c ∈ str, hexVal c = none) ∧
  (∀ str bytes, parseHex str = some bytes →
    str.length = 2 * bytes.length ∧
    ∀ k h l, (str[2 * k]?).bind hexVal = some h → (str[2 * k + 1]?).bind hexVal = some l →
      (bytes[k]?).map BitVec.toNat = some (16 * h + l))

/-- 30_encoding.md R57 against R54 and R55: the text the decoder prints for bytes holds uppercase
digits only and is a command string that parses to those bytes (decisions D10, D16; digit values and
nibble order are general knowledge, assumption log 17). -/
def Obligations.PrintedBytesParseBack : Prop :=
  ∀ bytes : List U8, parseHex (renderText (bytes.map .byte)) = some bytes ∧
    ∀ c ∈ renderText (bytes.map .byte), c ∈ "0123456789ABCDEF".toList

/-! ### The Pulse Encoder -/

/-- 40_encoder.md R67, R68 and R69: the effect of each symbol (that the waveform it appends to is kept
between operations, in `building`, is the model's choice, assumption log 6), how often `ENCODE` emits it, and
its LOW period on the bus with the sample and class a receiver gets. -/
def Obligations.WireSymbolsExtendTheWaveform : Prop :=
  (∀ s : State, s.halted = false →
    (∃ r, exec .sync s = .next { s with building := s.building ++ [⟨.high, 2400⟩, ⟨.low, 600⟩], result := r }) ∧
    (∃ r, exec .bit1 s = .next { s with building := s.building ++ [⟨.high, 1200⟩, ⟨.low, 600⟩], result := r }) ∧
    (∃ r, exec .bit0 s = .next { s with building := s.building ++ [⟨.high, 600⟩, ⟨.low, 600⟩], result := r })) ∧
  (∀ bytes : List U8,
    (encodeBytes bytes).take 2 = [⟨.high, 2400⟩, ⟨.low, 600⟩] ∧
    (encodeBytes bytes).count ⟨.high, 2400⟩ = 1 ∧
    (encodeBytes bytes).count ⟨.high, 1200⟩ = onesOf bytes ∧
    (encodeBytes bytes).count ⟨.high, 600⟩ = 8 * bytes.length - onesOf bytes) ∧
  quant 2400 = 240 ∧ classify 240 = .gap ∧ quant 1200 = 120 ∧ classify 120 = .one ∧
  quant 600 = 60 ∧ classify 60 = .zero

/-- 40_encoder.md R65, whole: the waveform that is handed back, for every byte list, and that no field
of the block and no event of the stream is written (`building` is the model's own, assumption log 6,
and is left open here). -/
def Obligations.EncodeReturnsTheFrame : Prop :=
  ∀ (bytes : List U8) (s : State), s.halted = false →
    ∃ w b, exec (.encode bytes) s = .next { s with result := .waveform w, building := b } ∧
      w = [⟨.high, 2400⟩, ⟨.low, 600⟩] ++
        bytes.flatMap fun b => [7, 6, 5, 4, 3, 2, 1, 0].flatMap fun i =>
          if b.getLsbD i = true then [⟨.high, 1200⟩, ⟨.low, 600⟩] else [⟨.high, 600⟩, ⟨.low, 600⟩]

/-- Performing the symbols of a command in order builds what `ENCODE` returns (30_encoding.md R48;
`building` is the model's own, assumption log 6). -/
def Obligations.SymbolOperationsBuildEncode : Prop :=
  ∀ (bytes : List U8) (s : State), s.halted = false → s.building = [] →
    performAll (.sync :: bytes.flatMap fun b => (byteBits b).map fun v => if v then .bit1 else .bit0) s =
      .next { s with building := encodeBytes bytes, result := .done }

/-- 40_encoder.md R66 a to e and g (the spec derives them). -/
def Obligations.EncodeHasTheFrameShape : Prop :=
  ∀ bytes : List U8,
    (encodeBytes bytes).length = 2 + 16 * bytes.length ∧
    duration (encodeBytes bytes) = 3000 + 9600 * bytes.length + 600 * onesOf bytes ∧
    (∀ k seg, (encodeBytes bytes)[k]? = some seg →
      (seg.level = if k % 2 = 0 then .high else .low) ∧ 600 ≤ seg.duration ∧
      (seg.level = .low → seg.duration = 600) ∧
      (k = 0 → seg.duration = 2400) ∧
      (seg.level = .high → k ≠ 0 → seg.duration = 1200 ∨ seg.duration = 600))

/-- 40_encoder.md R66 f (the spec derives it). -/
def Obligations.EncodeIsInjective : Prop :=
  ∀ a b : List U8, encodeBytes a = encodeBytes b → a = b

/-- 30_encoding.md R49 over R46 (decision D1): LOW periods, samples and edges of a frame on the bus. -/
def Obligations.FrameOnTheBus : Prop :=
  ∀ (bytes : List U8) (t0 : Tick),
    lowPeriods (encodeBytes bytes) =
      2400 :: (bytes.flatMap byteBits).map (fun v => if v then 1200 else 600) ∧
    frameSamples bytes = 240 :: (bytes.flatMap byteBits).map (fun v => if v then 120 else 60) ∧
    (busEdges (encodeBytes bytes) t0).length = 2 * (1 + 8 * bytes.length) ∧
    (∀ k e, (busEdges (encodeBytes bytes) t0)[k]? = some e →
      e.level = if k % 2 = 0 then .low else .high)

/-- 70_reset_and_hazards.md R165 (the spec derives it; decision D1; boundary that loops back
without latency, decision D20): where the last falling edge of the block's own frame lies, and when the bus then reads
idle. -/
def Obligations.OwnFrameLastFall : Prop :=
  ∀ (bytes : List U8) (t0 : Tick),
    let D := duration (encodeBytes bytes)
    let c := match bytes.getLast? with
      | none => 3000
      | some b => if b.getLsbD 0 = true then 1800 else 1200
    ((busEdges (encodeBytes bytes) t0).filter fun e => e.level = .low).getLast? =
      some ⟨.low, t0 + BitVec.ofNat 32 (D - c)⟩ ∧
    ∀ s : State, s.lastFallingEdgeTick = t0 + BitVec.ofNat 32 (D - c) →
      isIdle (t0 + BitVec.ofNat 32 (D + 21800 - c)) s = false ∧
      isIdle (t0 + BitVec.ofNat 32 (D + 21801 - c)) s = true

/-! ### SEND and the transmit sequencer -/

/-- 60_exceptions.md R131 with decision D9 (the spec's own choice, assumption log 18, marked in R70 and
R138): in a running block a string that does not parse is reported at once, before anything else is
tested, whatever the sequencer and the bus do, and nothing else changes. -/
def Obligations.MalformedCommandChangesNothing : Prop :=
  ∀ (str : List Char) (now : Tick) (s : State), s.halted = false → parseHex str = none →
    ∃ r, exec (.send str now) s =
      .next { s with out := s.out ++ [.sendResult .malformedCommand], result := r }

/-- 60_exceptions.md R132: a command that parses is turned away while the sequencer is busy or the bus
is not idle, and nothing else changes; the answer is distinct from `MalformedCommand`. -/
def Obligations.BusySendChangesNothing : Prop :=
  (∀ (str : List Char) (now : Tick) (s : State) (bytes : List U8), s.halted = false →
    parseHex str = some bytes →
    (s.txState ≠ .idle ∨ (tdiff now s.lastFallingEdgeTick).toNat ≤ 21800) →
    ∃ r, exec (.send str now) s = .next { s with out := s.out ++ [.sendResult .busBusy], result := r }) ∧
  sendOutcomeCode .busBusy ≠ sendOutcomeCode .malformedCommand

/-- 40_encoder.md R72 (decision D7): an accepted command starts its waveform, and nothing is emitted. -/
def Obligations.IdleSendIsAccepted : Prop :=
  ∀ (str : List Char) (now : Tick) (s : State) (bytes : List U8), s.halted = false →
    parseHex str = some bytes → s.txState = .idle →
    21800 < (tdiff now s.lastFallingEdgeTick).toNat →
    ∃ r, exec (.send str now) s =
      .next { s with txWave := encodeBytes bytes, txElapsed := 0, txState := .playing, tx := .high,
                     result := r }

/-- 40_encoder.md R73 (decision D7), one microsecond in each phase of the sequencer. -/
def Obligations.MicrosecondAdvancesTheSequencer : Prop :=
  ∀ s : State, s.halted = false →
    (s.txState = .idle → ∃ r, exec .txAdvance s = .next { s with result := r }) ∧
    (s.txState = .playing → s.txElapsed + 1 < duration s.txWave →
      ∃ r, exec .txAdvance s =
        .next { s with txElapsed := s.txElapsed + 1, tx := levelAt s.txWave (s.txElapsed + 1), result := r }) ∧
    (s.txState = .playing → duration s.txWave ≤ s.txElapsed + 1 →
      s.txElapsed + 1 < duration s.txWave + 20000 →
      ∃ r, exec .txAdvance s =
        .next { s with txElapsed := s.txElapsed + 1, txState := .guard, tx := .low, result := r }) ∧
    (s.txState = .guard → s.txElapsed + 1 < duration s.txWave + 20000 →
      ∃ r, exec .txAdvance s = .next { s with txElapsed := s.txElapsed + 1, result := r }) ∧
    (s.txState = .guard → duration s.txWave + 20000 ≤ s.txElapsed + 1 →
      ∃ r, exec .txAdvance s =
        .next { s with txState := .idle, txWave := [], txElapsed := 0,
                       out := s.out ++ [.sendResult .ok], result := r })

/-- 40_encoder.md R74 (the spec derives its consequences): `level_at` by the unique segment whose
half-open interval holds the time. -/
def Obligations.LevelIsThatOfTheCoveringSegment : Prop :=
  ∀ (w : Waveform) (e k : Nat) (seg : Segment), w[k]? = some seg →
    duration (w.take k) ≤ e → e < duration (w.take k) + seg.duration → levelAt w e = seg.level

/-- The closed form of 40_encoder.md R73 with R77 and R78 (decision D7): once a command is accepted,
whatever the other agents do short of `RESET` and `HW_FAIL`, the pin plays exactly its waveform, then
the guard, nothing cancels or replaces it, and no other command is accepted before the guard ends. -/
def Obligations.AcceptedWaveformRunsToCompletion : Prop :=
  ∀ (str : List Char) (now : Tick) (bytes : List U8) (s : State) (ops : List Instr),
    s.halted = false → s.txState = .idle → parseHex str = some bytes → isIdle now s = true →
    (∀ i ∈ ops, endsBlock i = false) →
    (microseconds ops < duration (encodeBytes bytes) + 20000 →
      ∃ t, performAll (.send str now :: ops) s = .next t ∧
        t.txWave = encodeBytes bytes ∧ t.txElapsed = microseconds ops ∧
        (microseconds ops < duration (encodeBytes bytes) →
          t.txState = .playing ∧ t.tx = levelAt (encodeBytes bytes) (microseconds ops)) ∧
        (duration (encodeBytes bytes) ≤ microseconds ops → t.txState = .guard ∧ t.tx = .low) ∧
        t.out.count (.sendResult .ok) = s.out.count (.sendResult .ok)) ∧
    (microseconds ops + 1 = duration (encodeBytes bytes) + 20000 →
      ∃ t, performAll (.send str now :: (ops ++ [.txAdvance])) s = .next t ∧
        t.txState = .idle ∧ t.txWave = [] ∧ t.txElapsed = 0 ∧ t.tx = .low ∧
        t.out.count (.sendResult .ok) = s.out.count (.sendResult .ok) + 1)

/-- 40_encoder.md R75 in real time (decision D7, environment of R159): after a command accepted at real
time `T0`, every command requested before `T0 + duration + 20000` is `BusBusy`. -/
def Obligations.SendIsBusyUntilTheGuardEnds : Prop :=
  ∀ (str str' : List Char) (bytes bytes' : List U8) (s : State) (T0 e T : Nat) (ops : List Instr),
    s.halted = false → s.txState = .idle → parseHex str = some bytes → parseHex str' = some bytes' →
    isIdle (BitVec.ofNat 32 T0) s = true → Orderly T0 e ops T →
    T < T0 + duration (encodeBytes bytes) + 20000 →
    ∃ t, performAll (.send str (BitVec.ofNat 32 T0) :: ops) s = .next t ∧
      ∃ r, exec (.send str' (BitVec.ofNat 32 T)) t =
        .next { t with out := t.out ++ [.sendResult .busBusy], result := r }

/-- 10_state.md R17 (decision D7): the sequencer makes no other transition than the three, each by its
own operation, in every state that keeps the invariant. -/
def Obligations.SequencerTransitions : Prop :=
  ∀ (i : Instr) (s t : State), Inv s → i ≠ .reset → exec i s = .next t →
    t.txState = s.txState ∨
    (s.txState = .idle ∧ t.txState = .playing ∧ ∃ str now, i = .send str now) ∨
    (s.txState = .playing ∧ t.txState = .guard ∧ i = .txAdvance) ∨
    (s.txState = .guard ∧ t.txState = .idle ∧ i = .txAdvance)

/-- 40_encoder.md R75 and 60_exceptions.md R137 (decision D7): `SendResult(OK)` is emitted exactly when
the sequencer returns to idle. -/
def Obligations.OkExactlyWhenTheSequencerReturns : Prop :=
  ∀ (i : Instr) (s t : State), Inv s → i ≠ .reset → exec i s = .next t →
    (t.out.count (.sendResult .ok) =
      s.out.count (.sendResult .ok) + if s.txState ≠ .idle ∧ t.txState = .idle then 1 else 0)

/-! ### The Edge Event Filter and the queue -/

/-- 41_edge_filter.md R86, whole: an event less than 100 us after the last accepted one changes nothing
and gives no sample, whatever its level; at 100 us or more it is accepted and becomes the reference. -/
def Obligations.DebounceDropsCloseEdges : Prop :=
  ∀ (e : EdgeEvent) (s : State), s.halted = false →
    ((tdiff e.timestamp s.lastInterruptTick).toNat < 100 →
      exec (.onEdge e) s = .next { s with result := .sample none } ∧
      exec (.edgeFall e.timestamp) s = .next { s with result := .sample none } ∧
      exec (.edgeRise e.timestamp) s = .next { s with result := .sample none }) ∧
    (100 ≤ (tdiff e.timestamp s.lastInterruptTick).toNat →
      (∃ t, exec (.onEdge e) s = .next t ∧ t.lastInterruptTick = e.timestamp) ∧
      (∃ t, exec (.edgeFall e.timestamp) s = .next t ∧ t.lastInterruptTick = e.timestamp) ∧
      (∃ t, exec (.edgeRise e.timestamp) s = .next t ∧ t.lastInterruptTick = e.timestamp))

/-- 41_edge_filter.md R87 and R88, whole: an accepted falling edge. -/
def Obligations.AcceptedFallIsRecorded : Prop :=
  ∀ (t : Tick) (s : State), s.halted = false → 100 ≤ (tdiff t s.lastInterruptTick).toNat →
    exec (.onEdge ⟨.low, t⟩) s =
      .next { s with lastInterruptTick := t, lastFallingEdgeTick := t, result := .sample none } ∧
    exec (.edgeFall t) s =
      .next { s with lastInterruptTick := t, lastFallingEdgeTick := t, result := .sample none }

/-- 41_edge_filter.md R87 and R89, whole: an accepted rising edge measures the LOW period, pushes the
sample (evicting the oldest of a full queue, 20_memory.md R31) and hands it back. -/
def Obligations.AcceptedRiseIsMeasured : Prop :=
  ∀ (t : Tick) (s : State), s.halted = false → 100 ≤ (tdiff t s.lastInterruptTick).toNat →
    ∃ v : U8, v.toNat = min 255 ((tdiff t s.lastFallingEdgeTick).toNat / 10) ∧
      (∀ i, i = .onEdge ⟨.high, t⟩ ∨ i = .edgeRise t →
        exec i s =
          .next { s with lastInterruptTick := t,
                         q := (if s.q.length = 200 then s.q.tail else s.q) ++ [v],
                         result := .sample (some v) })

/-- 20_memory.md R31, whole: the push, that it never fails and never grows the queue past 200, and that
no operation but a rising edge that the debounce accepts pushes (41_edge_filter.md R89). -/
def Obligations.QueuePushEvictsOldest : Prop :=
  (∀ (q : List U8) (v : U8),
    (q.length = 200 → qPush q v = q.tail ++ [v]) ∧ (q.length ≠ 200 → qPush q v = q ++ [v]) ∧
    (q.length ≤ 200 → (qPush q v).length ≤ 200) ∧ (qPush q v).getLast? = some v) ∧
  (∀ (i : Instr) (s t : State), exec i s = .next t →
    t.q = s.q ∨ (i = .decSample ∧ t.q = s.q.tail) ∨ (i = .reset ∧ t.q = []) ∨
    ((∃ tick, (i = .edgeRise tick ∨ i = .onEdge ⟨.high, tick⟩) ∧
        100 ≤ (tdiff tick s.lastInterruptTick).toNat) ∧
      s.halted = false ∧ ∃ v, t.q = qPush s.q v))

/-- 20_memory.md R33 and 70_reset_and_hazards.md R160: the samples that survive a burst of pushes are
the last 200, in order. -/
def Obligations.BurstKeepsTheLastSamples : Prop :=
  ∀ q vs : List U8, q.length ≤ 200 →
    vs.foldl qPush q = (q ++ vs).drop ((q ++ vs).length - 200)

/-! ### The Bus Idle Detector -/

/-- 42_idle_detector.md R100 and R101, whole: the strict test, its boundary for every reference tick
across the wrap, and that it reads and writes nothing else. -/
def Obligations.IdleTestIsStrict : Prop :=
  (∀ (now : Tick) (s : State), s.halted = false →
    ∃ b, exec (.isIdle now) s = .next { s with result := .idle b } ∧
      (b = true ↔ 21800 < (tdiff now s.lastFallingEdgeTick).toNat)) ∧
  (∀ s : State, isIdle (s.lastFallingEdgeTick + 21799) s = false ∧
    isIdle (s.lastFallingEdgeTick + 21800) s = false ∧
    isIdle (s.lastFallingEdgeTick + 21801) s = true) ∧
  (∀ (now : Tick) (s t : State), s.lastFallingEdgeTick = t.lastFallingEdgeTick →
    isIdle now s = isIdle now t)

/-- 42_idle_detector.md R104 case 4 and 70_reset_and_hazards.md R166 (the spec derives them): in real
time the test aliases modulo 2^32. -/
def Obligations.IdleTestAliases : Prop :=
  ∀ (u d : Nat) (s : State), s.lastFallingEdgeTick = BitVec.ofNat 32 u →
    (isIdle (BitVec.ofNat 32 (u + d)) s = true ↔ 21800 < d % 2 ^ 32)

/-! ### The Pulse Decoder -/

/-- 43_decoder.md R112 (decision D13), for `DEC_SAMPLE` on a gap sample. That the row `S_GAP` performed
alone has this effect, with no pop and no test of its operand's class, is the model's choice
(assumption log 7). -/
def Obligations.GapDiscardsBitsInProgress : Prop :=
  ∀ (v : U8) (rest : List U8) (s : State), s.halted = false →
    let out' := s.out ++ (if s.partialFrame = true ∧ s.currentBitCount ≠ 0 then
      [.strayBitsDiscarded s.currentBitCount] else [])
    (∃ r, exec (.sGap v) s =
      .next { s with currentBitCount := 0, currentByte := 0, out := out', result := r }) ∧
    (s.q = v :: rest → 2000 < 10 * v.toNat →
      ∃ r, exec .decSample s =
        .next { s with q := rest, currentBitCount := 0, currentByte := 0, out := out', result := r })

/-- 43_decoder.md R113, R114, R116 and R117, for `DEC_SAMPLE`: a data sample sets `partial_frame`,
assigns the bit at position 7 down to 0 (strictly above 900 is a 1), and at the eighth bit emits the
byte and clears. That the rows `S_ONE` and `S_ZERO` performed alone have this effect, with no pop and
no test of their operand's class, is the model's choice (assumption log 7). The premise on the count
is the invariant of 10_state.md R28. -/
def Obligations.DataSampleAccumulates : Prop :=
  ∀ (v : U8) (rest : List U8) (s : State) (i : Instr) (bit : Bool), s.halted = false →
    s.currentBitCount ≤ 7 →
    ((i = .decSample ∧ s.q = v :: rest ∧ 10 * v.toNat ≤ 2000 ∧ bit = decide (900 < 10 * v.toNat)) ∨
      (i = .sOne v ∧ bit = true ∧ rest = s.q) ∨ (i = .sZero v ∧ bit = false ∧ rest = s.q)) →
    ∃ b : U8, (∀ k, k < 8 → b.getLsbD k = if k = 7 - s.currentBitCount then bit else s.currentByte.getLsbD k) ∧
      ∃ r, exec i s = .next
        (if s.currentBitCount = 7 then
          { s with q := rest, partialFrame := true, currentBitCount := 0, currentByte := 0,
                   out := s.out ++ [.byte b], result := r }
        else
          { s with q := rest, partialFrame := true, currentBitCount := s.currentBitCount + 1,
                   currentByte := b, result := r })

/-- 43_decoder.md R111 against 30_encoding.md R62: `DEC_SAMPLE` pops the oldest sample and then does
what the row of the sample's class does. -/
def Obligations.DecSampleIsItsClassCase : Prop :=
  ∀ (v : U8) (rest : List U8) (s : State), s.q = v :: rest → s.halted = false →
    exec .decSample s = exec (decodeSample8 v) { s with q := rest }

/-- 20_memory.md R35 and R37 b: any eight data samples, with no sync needed (43_decoder.md R118), make
one byte, the first arrived in bit 7. -/
def Obligations.EightDataSamplesMakeAByte : Prop :=
  ∀ (vs rest : List U8) (s : State), vs.length = 8 → (∀ v ∈ vs, 10 * v.toNat ≤ 2000) →
    s.halted = false → s.currentBitCount = 0 → s.q = vs ++ rest →
    ∃ (b : U8) (t : State), performAll (List.replicate 8 .decSample) s = .next t ∧
      (∀ k v, vs[k]? = some v → b.getLsbD (7 - k) = decide (900 < 10 * v.toNat)) ∧
      t.out = s.out ++ [.byte b] ∧ t.q = rest ∧ t.currentBitCount = 0 ∧ t.currentByte = 0 ∧
      t.partialFrame = true

/-- 43_decoder.md R115 (decisions D11 and D12): the terminator, with stray bits reported first. -/
def Obligations.FlushEmitsTheTerminator : Prop :=
  ∀ (now : Tick) (s : State), s.halted = false → s.q = [] → s.partialFrame = true →
    21800 < (tdiff now s.lastFallingEdgeTick).toNat →
    ∃ r, exec (.decFlush now) s =
      .next (if s.currentBitCount = 0 then
          { s with partialFrame := false, out := s.out ++ [.frameEnd], result := r }
        else
          { s with partialFrame := false, currentBitCount := 0, currentByte := 0,
                   out := s.out ++ [.strayBitsDiscarded s.currentBitCount, .frameEnd], result := r })

/-- 43_decoder.md R110: the decoder's operations are performed exactly where they are enabled, and
change nothing elsewhere (that an operation without a step is offered and passed over is the model's
choice, assumption log 3); no state enables both. -/
def Obligations.DecoderStepsOnlyWhenEnabled : Prop :=
  ∀ (now : Tick) (s : State),
    (s.q = [] → exec .decSample s = .next { s with result := .noStep }) ∧
    ((s.q ≠ [] ∨ s.partialFrame = false ∨ (tdiff now s.lastFallingEdgeTick).toNat ≤ 21800) →
      exec (.decFlush now) s = .next { s with result := .noStep }) ∧
    (∀ t, exec .decSample s = .next t → (t.result ≠ .noStep ↔ decSampleEnabled s = true)) ∧
    (∀ t, exec (.decFlush now) s = .next t → (t.result ≠ .noStep ↔ decFlushEnabled now s = true)) ∧
    ¬ (decSampleEnabled s = true ∧ decFlushEnabled now s = true)

/-- 60_exceptions.md R133, both ways: a gap sample or an idle flush that finds 1 to 7 bits reports
their number, and nothing else reports discarded bits; no byte is emitted with the notice, and the
decoder is left clean. That an idle flush reports before its terminator is decision D12
(43_decoder.md R115); that the row `S_GAP` is performed alone is the model's choice (assumption
log 7). -/
def Obligations.StrayBitsAreReportedOnce : Prop :=
  (∀ (i : Instr) (s t : State) (n : Nat), Inv s → exec i s = .next t →
    s.out.count (.strayBitsDiscarded n) < t.out.count (.strayBitsDiscarded n) →
    1 ≤ n ∧ n ≤ 7 ∧ s.currentBitCount = n ∧ t.currentBitCount = 0 ∧ t.currentByte = 0 ∧
    ((t.out = s.out ++ [.strayBitsDiscarded n] ∧
        ((∃ v, i = .sGap v) ∨ (i = .decSample ∧ ∃ v ∈ s.q.head?, 2000 < 10 * v.toNat))) ∨
      (t.out = s.out ++ [.strayBitsDiscarded n, .frameEnd] ∧ ∃ now, i = .decFlush now))) ∧
  (∀ (i : Instr) (s : State), Inv s → s.halted = false → s.currentBitCount ≠ 0 →
    ((∃ v, i = .sGap v) ∨ (i = .decSample ∧ ∃ v ∈ s.q.head?, 2000 < 10 * v.toNat)) →
    ∃ t, exec i s = .next t ∧ t.out = s.out ++ [.strayBitsDiscarded s.currentBitCount] ∧
      t.currentBitCount = 0 ∧ t.currentByte = 0 ∧ t.partialFrame = s.partialFrame) ∧
  (∀ (now : Tick) (s : State), Inv s → s.halted = false → s.currentBitCount ≠ 0 → s.q = [] →
    21800 < (tdiff now s.lastFallingEdgeTick).toNat →
    ∃ t, exec (.decFlush now) s = .next t ∧
      t.out = s.out ++ [.strayBitsDiscarded s.currentBitCount, .frameEnd] ∧
      t.currentBitCount = 0 ∧ t.currentByte = 0 ∧ t.partialFrame = false)

/-- 43_decoder.md R121 with 90_conflicts.md C9 and C15 (the spec derives it; decisions D1, D4, D5, D11,
D20): a frame of up to 25 bytes on the bus is decoded to exactly its bytes, for every interleaving of
its edge events with the decoder's two operations, with `SEND`s, microseconds and every other operation
that neither ends the block nor is a sample-class or edge-kind row performed alone; the terminator
follows. A `DEC_FLUSH` may be offered anywhere but where 43_decoder.md R110 enables it before the frame
is over (R171 says that it then splits the frame); on a bus that is not idle it never is enabled. An
operation offered where it is not enabled is passed over (assumption log 3). -/
def Obligations.FrameDecodesUnderEverySchedule : Prop :=
  ∀ (bytes : List U8) (t0 : Tick) (s : State) (ops : List Instr),
    1 ≤ bytes.length → bytes.length ≤ 25 → s.halted = false → s.q = [] → s.currentBitCount = 0 →
    s.currentByte = 0 → s.partialFrame = false → 100 ≤ (tdiff t0 s.lastInterruptTick).toNat →
    ops.filter isFilterOp = (busEdges (encodeBytes bytes) t0).map .onEdge →
    (∀ i ∈ ops, endsBlock i = false) → (∀ i ∈ ops, isClassRow i = false) →
    noFlushFires ops s = true →
    ∃ t, performAll (ops ++ List.replicate (1 + 8 * bytes.length) .decSample) s = .next t ∧
      t.out.filter isDecoderEvent = s.out.filter isDecoderEvent ++ bytes.map .byte ∧
      t.q = [] ∧ t.currentBitCount = 0 ∧ t.partialFrame = true ∧
      ∀ now, isIdle now t = true → ∃ u, exec (.decFlush now) t = .next u ∧
        u.out = t.out ++ [.frameEnd] ∧ u.partialFrame = false

/-- 70_reset_and_hazards.md R160 (the spec derives it): with the decoder stalled for the whole frame,
exactly the last 25 bytes are decoded, with no notice (decisions D1, D5, D20). A `DEC_SAMPLE` beyond
the last sample is passed over (assumption log 3). -/
def Obligations.StalledDecoderKeepsLastBytes : Prop :=
  ∀ (bytes : List U8) (t0 : Tick) (s : State), 1 ≤ bytes.length → s.halted = false → s.q = [] →
    s.currentBitCount = 0 → s.currentByte = 0 → s.partialFrame = false →
    100 ≤ (tdiff t0 s.lastInterruptTick).toNat →
    ∃ t, performAll ((busEdges (encodeBytes bytes) t0).map .onEdge ++
        List.replicate (1 + 8 * bytes.length) .decSample) s = .next t ∧
      t.out = s.out ++ (bytes.drop (bytes.length - 25)).map .byte ∧ t.q = [] ∧ t.currentBitCount = 0

/-! ### Conditions, halting, reset, and the whole machine -/

/-- No operation ends in a fault or a refusal: no condition of 60_exceptions.md R130 stops the machine
(R140, R141; that an operation without a step is passed over is the model's choice, assumption log 3). -/
def Obligations.EveryOperationAnswersNext : Prop :=
  ∀ (i : Instr) (s : State), ∃ t, exec i s = .next t

/-- 60_exceptions.md R134 and 93_implementation_defined.md U4 (decision D19): `HW_FAIL` halts the block
and leaves the pin at a free level; nothing else changes and nothing is emitted. -/
def Obligations.HwFailHaltsAndFreesThePin : Prop :=
  ∀ s : State, s.halted = false →
    ∃ r, exec .hwFail s =
      .next { s with halted := true, tx := Config.freePinLevel s.freeCount,
                     freeCount := s.freeCount + 1, result := r }

/-- 10_state.md R21 and 60_exceptions.md R134 (decision D19; assumption logs 3, 4, 5): in a halted block
no operation but `RESET` changes any field of the block but the free pin, and nothing is emitted, however
many operations are offered. -/
def Obligations.HaltedBlockStaysHalted : Prop :=
  ∀ (ops : List Instr) (s : State), s.halted = true → (∀ i ∈ ops, i ≠ .reset) →
    ∃ l c r, performAll ops s = .next { s with tx := l, freeCount := c, result := r } ∧
      ((∀ i ∈ ops, i ≠ .txAdvance) → l = s.tx ∧ c = s.freeCount)

/-- 70_reset_and_hazards.md R155 and R156 with 10_state.md R29 (decisions D3, D7, D8, D23): `RESET` from
every state, also a halted one and also mid-waveform, leaves the values of the reset column, and the
environment's fields (the model's choice, assumption log 10). -/
def Obligations.ResetLeavesTheResetValues : Prop :=
  ∀ s : State, ∃ r, exec .reset s = .next
    { lastInterruptTick := 0, lastFallingEdgeTick := 0, currentByte := 0, currentBitCount := 0,
      partialFrame := false, q := [], txState := .idle, txWave := [], txElapsed := 0, tx := .low,
      halted := false, out := [], result := r, building := [], inbox := s.inbox,
      freeCount := s.freeCount }

/-- The machine after reset: all eleven fields of 10_state.md R29 and the empty output stream (decisions
D3, D7, D8, D19), and the invariant of R28 (the spec derives it). The invariant is
`Sys2Proof.Machine.Inv`. -/
def Obligations.InvariantHoldsAtReset : Prop :=
  Inv State.reset ∧ State.reset.lastInterruptTick = 0 ∧ State.reset.lastFallingEdgeTick = 0 ∧
    State.reset.currentByte = 0 ∧ State.reset.currentBitCount = 0 ∧ State.reset.partialFrame = false ∧
    State.reset.q = [] ∧ State.reset.txState = .idle ∧ State.reset.txWave = [] ∧
    State.reset.txElapsed = 0 ∧ State.reset.tx = .low ∧ State.reset.halted = false ∧ State.reset.out = []

/-- 10_state.md R28 (the spec derives it; with R17 to R20 and decisions D7, D8, D19): every step keeps
the invariant, from every state that has it. -/
def Obligations.StepKeepsTheInvariant : Prop :=
  ∀ s t : State, Inv s → step s = .next t → Inv t

/-- 10_state.md R24 and 40_encoder.md R79: each field is written by its own agent only; `RESET` writes
all, and `HW_FAIL` and a halted microsecond free the pin (assumption log 5). -/
def Obligations.EachFieldHasOneWriter : Prop :=
  ∀ (i : Instr) (s t : State), i ≠ .reset → exec i s = .next t →
    (isFilterOp i = false →
      t.lastInterruptTick = s.lastInterruptTick ∧ t.lastFallingEdgeTick = s.lastFallingEdgeTick) ∧
    (isDecoderOp i = false →
      t.currentByte = s.currentByte ∧ t.currentBitCount = s.currentBitCount ∧
      t.partialFrame = s.partialFrame) ∧
    (isFilterOp i = false → i ≠ .decSample → t.q = s.q) ∧
    (isTransmitOp i = false →
      t.txState = s.txState ∧ t.txWave = s.txWave ∧ t.txElapsed = s.txElapsed ∧
      (i ≠ .hwFail → t.tx = s.tx)) ∧
    (i ≠ .hwFail → t.halted = s.halted) ∧
    (isDecoderOp i = false → isTransmitOp i = false → t.out = s.out) ∧
    t.inbox = s.inbox

/-- 10_state.md R22: the output stream is append-only; an operation emits at most two events. -/
def Obligations.OutputIsAppendOnly : Prop :=
  ∀ (i : Instr) (s t : State), i ≠ .reset → exec i s = .next t →
    ∃ es : List OutEvent, t.out = s.out ++ es ∧ es.length ≤ 2

/-- 20_memory.md R41 point 4 and 40_encoder.md R79 (decision D14): the receive path, its state and its
events, is the same whatever the transmit path does, and the transmit path is the same whatever the
decoder does. -/
def Obligations.PathsDoNotInterfere : Prop :=
  (∀ (ops : List Instr) (s s' : State), sameReceive s s' →
    ∃ t t', performAll ops s = .next t ∧
      performAll (ops.filter fun i => !isTransmitOp i) s' = .next t' ∧ sameReceive t t') ∧
  (∀ (ops : List Instr) (s s' : State), sameTransmit s s' →
    ∃ t t', performAll ops s = .next t ∧
      performAll (ops.filter fun i => !isDecoderOp i) s' = .next t' ∧ sameTransmit t t')

/-- 70_reset_and_hazards.md R158 and R163 (the spec derives them; decision D3): the first operations
after reset. -/
def Obligations.FirstOperationsAfterReset : Prop :=
  (∀ e : EdgeEvent, e.timestamp.toNat < 100 →
    exec (.onEdge e) State.reset = .next { State.reset with result := .sample none }) ∧
  (∀ t : Tick, 100 ≤ t.toNat → ∃ u, exec (.onEdge ⟨.high, t⟩) State.reset = .next u ∧
    u.q = [BitVec.ofNat 8 (min 255 (t.toNat / 10))]) ∧
  (∀ (str : List Char) (now : Tick) (bytes : List U8), parseHex str = some bytes →
    ∃ u, exec (.send str now) State.reset = .next u ∧
      (now.toNat ≤ 21800 → u.txState = .idle ∧ u.out = [.sendResult .busBusy]) ∧
      (21800 < now.toNat → u.txState = .playing ∧ u.tx = .high ∧ u.out = []))

/-- 70_reset_and_hazards.md R175 (decision D25): a running block whose queue is drained, whose
terminator is taken on an idle bus, and whose waveform and guard are given their time, is quiescent. A
`DEC_FLUSH` offered where no terminator is owed is passed over (assumption log 3). -/
def Obligations.QuiescenceIsReached : Prop :=
  ∀ (now : Tick) (s : State), Inv s → s.halted = false → s.inbox = [] → isIdle now s = true →
    ∃ t, performAll (List.replicate s.q.length .decSample ++ [.decFlush now] ++
        List.replicate (if s.txState = .idle then 0
          else duration s.txWave + 20000 - s.txElapsed) .txAdvance) s = .next t ∧
      quiescent t = true
end

