-- ==== Sys2Proof/Laws/Params.lean ====
section
/-! SUPPORT. The value of each implementation parameter (00_scope.md R4). -/

namespace Sys2Proof.Machine

@[simp] theorem params_tickBits : params.tickBits = 32 := rfl
@[simp] theorem params_tickUnit : params.tickUnit = 1 := rfl
@[simp] theorem params_tSyncMark : params.tSyncMark = 2400 := rfl
@[simp] theorem params_tSpace : params.tSpace = 600 := rfl
@[simp] theorem params_tOneMark : params.tOneMark = 1200 := rfl
@[simp] theorem params_tZeroMark : params.tZeroMark = 600 := rfl
@[simp] theorem params_tGuard : params.tGuard = 20000 := rfl
@[simp] theorem params_tDebounce : params.tDebounce = 100 := rfl
@[simp] theorem params_tIdle : params.tIdle = 21800 := rfl
@[simp] theorem params_qDiv : params.qDiv = 10 := rfl
@[simp] theorem params_sampleMax : params.sampleMax = 255 := rfl
@[simp] theorem params_fifoCap : params.fifoCap = 200 := rfl
@[simp] theorem params_rawGap : params.rawGap = 2000 := rfl
@[simp] theorem params_rawOne : params.rawOne = 900 := rfl
@[simp] theorem params_byteBits : params.byteBits = 8 := rfl
@[simp] theorem params_allowEmpty : params.allowEmpty = true := rfl
@[simp] theorem params_codeOk : params.codeOk = 0 := rfl
@[simp] theorem params_codeMalformedCommand : params.codeMalformedCommand = 1 := rfl
@[simp] theorem params_codeBusBusy : params.codeBusBusy = 2 := rfl
@[simp] theorem params_codeHardwareUnavailable : params.codeHardwareUnavailable = 3 := rfl

end Sys2Proof.Machine
end

