-- ==== Sys2Proof/Laws/State.lean ====
section
/-! SUPPORT. One lemma per field per named update of the state, each true by rfl, so that no proof
unfolds a record update; and the fields of the reset state. -/

namespace Sys2Proof.Machine

variable (s : State)

@[simp] theorem ret_lastInterruptTick (r : OpResult) : (s.ret r).lastInterruptTick = s.lastInterruptTick := rfl
@[simp] theorem ret_lastFallingEdgeTick (r : OpResult) : (s.ret r).lastFallingEdgeTick = s.lastFallingEdgeTick := rfl
@[simp] theorem ret_currentByte (r : OpResult) : (s.ret r).currentByte = s.currentByte := rfl
@[simp] theorem ret_currentBitCount (r : OpResult) : (s.ret r).currentBitCount = s.currentBitCount := rfl
@[simp] theorem ret_partialFrame (r : OpResult) : (s.ret r).partialFrame = s.partialFrame := rfl
@[simp] theorem ret_q (r : OpResult) : (s.ret r).q = s.q := rfl
@[simp] theorem ret_txState (r : OpResult) : (s.ret r).txState = s.txState := rfl
@[simp] theorem ret_txWave (r : OpResult) : (s.ret r).txWave = s.txWave := rfl
@[simp] theorem ret_txElapsed (r : OpResult) : (s.ret r).txElapsed = s.txElapsed := rfl
@[simp] theorem ret_tx (r : OpResult) : (s.ret r).tx = s.tx := rfl
@[simp] theorem ret_halted (r : OpResult) : (s.ret r).halted = s.halted := rfl
@[simp] theorem ret_out (r : OpResult) : (s.ret r).out = s.out := rfl
@[simp] theorem ret_result (r : OpResult) : (s.ret r).result = r := rfl
@[simp] theorem ret_building (r : OpResult) : (s.ret r).building = s.building := rfl
@[simp] theorem ret_inbox (r : OpResult) : (s.ret r).inbox = s.inbox := rfl
@[simp] theorem ret_freeCount (r : OpResult) : (s.ret r).freeCount = s.freeCount := rfl

@[simp] theorem emit_lastInterruptTick (e : OutEvent) : (s.emit e).lastInterruptTick = s.lastInterruptTick := rfl
@[simp] theorem emit_lastFallingEdgeTick (e : OutEvent) : (s.emit e).lastFallingEdgeTick = s.lastFallingEdgeTick := rfl
@[simp] theorem emit_currentByte (e : OutEvent) : (s.emit e).currentByte = s.currentByte := rfl
@[simp] theorem emit_currentBitCount (e : OutEvent) : (s.emit e).currentBitCount = s.currentBitCount := rfl
@[simp] theorem emit_partialFrame (e : OutEvent) : (s.emit e).partialFrame = s.partialFrame := rfl
@[simp] theorem emit_q (e : OutEvent) : (s.emit e).q = s.q := rfl
@[simp] theorem emit_txState (e : OutEvent) : (s.emit e).txState = s.txState := rfl
@[simp] theorem emit_txWave (e : OutEvent) : (s.emit e).txWave = s.txWave := rfl
@[simp] theorem emit_txElapsed (e : OutEvent) : (s.emit e).txElapsed = s.txElapsed := rfl
@[simp] theorem emit_tx (e : OutEvent) : (s.emit e).tx = s.tx := rfl
@[simp] theorem emit_halted (e : OutEvent) : (s.emit e).halted = s.halted := rfl
@[simp] theorem emit_out (e : OutEvent) : (s.emit e).out = s.out ++ [e] := rfl
@[simp] theorem emit_result (e : OutEvent) : (s.emit e).result = s.result := rfl
@[simp] theorem emit_building (e : OutEvent) : (s.emit e).building = s.building := rfl
@[simp] theorem emit_inbox (e : OutEvent) : (s.emit e).inbox = s.inbox := rfl
@[simp] theorem emit_freeCount (e : OutEvent) : (s.emit e).freeCount = s.freeCount := rfl

@[simp] theorem freePin_lastInterruptTick : (s.freePin).lastInterruptTick = s.lastInterruptTick := rfl
@[simp] theorem freePin_lastFallingEdgeTick : (s.freePin).lastFallingEdgeTick = s.lastFallingEdgeTick := rfl
@[simp] theorem freePin_currentByte : (s.freePin).currentByte = s.currentByte := rfl
@[simp] theorem freePin_currentBitCount : (s.freePin).currentBitCount = s.currentBitCount := rfl
@[simp] theorem freePin_partialFrame : (s.freePin).partialFrame = s.partialFrame := rfl
@[simp] theorem freePin_q : (s.freePin).q = s.q := rfl
@[simp] theorem freePin_txState : (s.freePin).txState = s.txState := rfl
@[simp] theorem freePin_txWave : (s.freePin).txWave = s.txWave := rfl
@[simp] theorem freePin_txElapsed : (s.freePin).txElapsed = s.txElapsed := rfl
@[simp] theorem freePin_tx : (s.freePin).tx = Config.freePinLevel s.freeCount := rfl
@[simp] theorem freePin_halted : (s.freePin).halted = s.halted := rfl
@[simp] theorem freePin_out : (s.freePin).out = s.out := rfl
@[simp] theorem freePin_result : (s.freePin).result = s.result := rfl
@[simp] theorem freePin_building : (s.freePin).building = s.building := rfl
@[simp] theorem freePin_inbox : (s.freePin).inbox = s.inbox := rfl
@[simp] theorem freePin_freeCount : (s.freePin).freeCount = s.freeCount + 1 := rfl

@[simp] theorem halt_lastInterruptTick : (s.halt).lastInterruptTick = s.lastInterruptTick := rfl
@[simp] theorem halt_lastFallingEdgeTick : (s.halt).lastFallingEdgeTick = s.lastFallingEdgeTick := rfl
@[simp] theorem halt_currentByte : (s.halt).currentByte = s.currentByte := rfl
@[simp] theorem halt_currentBitCount : (s.halt).currentBitCount = s.currentBitCount := rfl
@[simp] theorem halt_partialFrame : (s.halt).partialFrame = s.partialFrame := rfl
@[simp] theorem halt_q : (s.halt).q = s.q := rfl
@[simp] theorem halt_txState : (s.halt).txState = s.txState := rfl
@[simp] theorem halt_txWave : (s.halt).txWave = s.txWave := rfl
@[simp] theorem halt_txElapsed : (s.halt).txElapsed = s.txElapsed := rfl
@[simp] theorem halt_tx : (s.halt).tx = s.tx := rfl
@[simp] theorem halt_halted : (s.halt).halted = true := rfl
@[simp] theorem halt_out : (s.halt).out = s.out := rfl
@[simp] theorem halt_result : (s.halt).result = s.result := rfl
@[simp] theorem halt_building : (s.halt).building = s.building := rfl
@[simp] theorem halt_inbox : (s.halt).inbox = s.inbox := rfl
@[simp] theorem halt_freeCount : (s.halt).freeCount = s.freeCount := rfl

@[simp] theorem clearAccumulator_lastInterruptTick : (s.clearAccumulator).lastInterruptTick = s.lastInterruptTick := rfl
@[simp] theorem clearAccumulator_lastFallingEdgeTick : (s.clearAccumulator).lastFallingEdgeTick = s.lastFallingEdgeTick := rfl
@[simp] theorem clearAccumulator_currentByte : (s.clearAccumulator).currentByte = 0 := rfl
@[simp] theorem clearAccumulator_currentBitCount : (s.clearAccumulator).currentBitCount = 0 := rfl
@[simp] theorem clearAccumulator_partialFrame : (s.clearAccumulator).partialFrame = s.partialFrame := rfl
@[simp] theorem clearAccumulator_q : (s.clearAccumulator).q = s.q := rfl
@[simp] theorem clearAccumulator_txState : (s.clearAccumulator).txState = s.txState := rfl
@[simp] theorem clearAccumulator_txWave : (s.clearAccumulator).txWave = s.txWave := rfl
@[simp] theorem clearAccumulator_txElapsed : (s.clearAccumulator).txElapsed = s.txElapsed := rfl
@[simp] theorem clearAccumulator_tx : (s.clearAccumulator).tx = s.tx := rfl
@[simp] theorem clearAccumulator_halted : (s.clearAccumulator).halted = s.halted := rfl
@[simp] theorem clearAccumulator_out : (s.clearAccumulator).out = s.out := rfl
@[simp] theorem clearAccumulator_result : (s.clearAccumulator).result = s.result := rfl
@[simp] theorem clearAccumulator_building : (s.clearAccumulator).building = s.building := rfl
@[simp] theorem clearAccumulator_inbox : (s.clearAccumulator).inbox = s.inbox := rfl
@[simp] theorem clearAccumulator_freeCount : (s.clearAccumulator).freeCount = s.freeCount := rfl

@[simp] theorem storeBit_lastInterruptTick (v : Bool) : (s.storeBit v).lastInterruptTick = s.lastInterruptTick := rfl
@[simp] theorem storeBit_lastFallingEdgeTick (v : Bool) : (s.storeBit v).lastFallingEdgeTick = s.lastFallingEdgeTick := rfl
@[simp] theorem storeBit_currentByte (v : Bool) : (s.storeBit v).currentByte = assignBit s.currentByte (params.byteBits - (s.currentBitCount + 1)) v := rfl
@[simp] theorem storeBit_currentBitCount (v : Bool) : (s.storeBit v).currentBitCount = s.currentBitCount + 1 := rfl
@[simp] theorem storeBit_partialFrame (v : Bool) : (s.storeBit v).partialFrame = true := rfl
@[simp] theorem storeBit_q (v : Bool) : (s.storeBit v).q = s.q := rfl
@[simp] theorem storeBit_txState (v : Bool) : (s.storeBit v).txState = s.txState := rfl
@[simp] theorem storeBit_txWave (v : Bool) : (s.storeBit v).txWave = s.txWave := rfl
@[simp] theorem storeBit_txElapsed (v : Bool) : (s.storeBit v).txElapsed = s.txElapsed := rfl
@[simp] theorem storeBit_tx (v : Bool) : (s.storeBit v).tx = s.tx := rfl
@[simp] theorem storeBit_halted (v : Bool) : (s.storeBit v).halted = s.halted := rfl
@[simp] theorem storeBit_out (v : Bool) : (s.storeBit v).out = s.out := rfl
@[simp] theorem storeBit_result (v : Bool) : (s.storeBit v).result = s.result := rfl
@[simp] theorem storeBit_building (v : Bool) : (s.storeBit v).building = s.building := rfl
@[simp] theorem storeBit_inbox (v : Bool) : (s.storeBit v).inbox = s.inbox := rfl
@[simp] theorem storeBit_freeCount (v : Bool) : (s.storeBit v).freeCount = s.freeCount := rfl

@[simp] theorem clearPartial_lastInterruptTick : (s.clearPartial).lastInterruptTick = s.lastInterruptTick := rfl
@[simp] theorem clearPartial_lastFallingEdgeTick : (s.clearPartial).lastFallingEdgeTick = s.lastFallingEdgeTick := rfl
@[simp] theorem clearPartial_currentByte : (s.clearPartial).currentByte = s.currentByte := rfl
@[simp] theorem clearPartial_currentBitCount : (s.clearPartial).currentBitCount = s.currentBitCount := rfl
@[simp] theorem clearPartial_partialFrame : (s.clearPartial).partialFrame = false := rfl
@[simp] theorem clearPartial_q : (s.clearPartial).q = s.q := rfl
@[simp] theorem clearPartial_txState : (s.clearPartial).txState = s.txState := rfl
@[simp] theorem clearPartial_txWave : (s.clearPartial).txWave = s.txWave := rfl
@[simp] theorem clearPartial_txElapsed : (s.clearPartial).txElapsed = s.txElapsed := rfl
@[simp] theorem clearPartial_tx : (s.clearPartial).tx = s.tx := rfl
@[simp] theorem clearPartial_halted : (s.clearPartial).halted = s.halted := rfl
@[simp] theorem clearPartial_out : (s.clearPartial).out = s.out := rfl
@[simp] theorem clearPartial_result : (s.clearPartial).result = s.result := rfl
@[simp] theorem clearPartial_building : (s.clearPartial).building = s.building := rfl
@[simp] theorem clearPartial_inbox : (s.clearPartial).inbox = s.inbox := rfl
@[simp] theorem clearPartial_freeCount : (s.clearPartial).freeCount = s.freeCount := rfl

@[simp] theorem pushSample_lastInterruptTick (v : U8) : (s.pushSample v).lastInterruptTick = s.lastInterruptTick := rfl
@[simp] theorem pushSample_lastFallingEdgeTick (v : U8) : (s.pushSample v).lastFallingEdgeTick = s.lastFallingEdgeTick := rfl
@[simp] theorem pushSample_currentByte (v : U8) : (s.pushSample v).currentByte = s.currentByte := rfl
@[simp] theorem pushSample_currentBitCount (v : U8) : (s.pushSample v).currentBitCount = s.currentBitCount := rfl
@[simp] theorem pushSample_partialFrame (v : U8) : (s.pushSample v).partialFrame = s.partialFrame := rfl
@[simp] theorem pushSample_q (v : U8) : (s.pushSample v).q = qPush s.q v := rfl
@[simp] theorem pushSample_txState (v : U8) : (s.pushSample v).txState = s.txState := rfl
@[simp] theorem pushSample_txWave (v : U8) : (s.pushSample v).txWave = s.txWave := rfl
@[simp] theorem pushSample_txElapsed (v : U8) : (s.pushSample v).txElapsed = s.txElapsed := rfl
@[simp] theorem pushSample_tx (v : U8) : (s.pushSample v).tx = s.tx := rfl
@[simp] theorem pushSample_halted (v : U8) : (s.pushSample v).halted = s.halted := rfl
@[simp] theorem pushSample_out (v : U8) : (s.pushSample v).out = s.out := rfl
@[simp] theorem pushSample_result (v : U8) : (s.pushSample v).result = s.result := rfl
@[simp] theorem pushSample_building (v : U8) : (s.pushSample v).building = s.building := rfl
@[simp] theorem pushSample_inbox (v : U8) : (s.pushSample v).inbox = s.inbox := rfl
@[simp] theorem pushSample_freeCount (v : U8) : (s.pushSample v).freeCount = s.freeCount := rfl

@[simp] theorem withQueue_lastInterruptTick (q : List U8) : (s.withQueue q).lastInterruptTick = s.lastInterruptTick := rfl
@[simp] theorem withQueue_lastFallingEdgeTick (q : List U8) : (s.withQueue q).lastFallingEdgeTick = s.lastFallingEdgeTick := rfl
@[simp] theorem withQueue_currentByte (q : List U8) : (s.withQueue q).currentByte = s.currentByte := rfl
@[simp] theorem withQueue_currentBitCount (q : List U8) : (s.withQueue q).currentBitCount = s.currentBitCount := rfl
@[simp] theorem withQueue_partialFrame (q : List U8) : (s.withQueue q).partialFrame = s.partialFrame := rfl
@[simp] theorem withQueue_q (q : List U8) : (s.withQueue q).q = q := rfl
@[simp] theorem withQueue_txState (q : List U8) : (s.withQueue q).txState = s.txState := rfl
@[simp] theorem withQueue_txWave (q : List U8) : (s.withQueue q).txWave = s.txWave := rfl
@[simp] theorem withQueue_txElapsed (q : List U8) : (s.withQueue q).txElapsed = s.txElapsed := rfl
@[simp] theorem withQueue_tx (q : List U8) : (s.withQueue q).tx = s.tx := rfl
@[simp] theorem withQueue_halted (q : List U8) : (s.withQueue q).halted = s.halted := rfl
@[simp] theorem withQueue_out (q : List U8) : (s.withQueue q).out = s.out := rfl
@[simp] theorem withQueue_result (q : List U8) : (s.withQueue q).result = s.result := rfl
@[simp] theorem withQueue_building (q : List U8) : (s.withQueue q).building = s.building := rfl
@[simp] theorem withQueue_inbox (q : List U8) : (s.withQueue q).inbox = s.inbox := rfl
@[simp] theorem withQueue_freeCount (q : List U8) : (s.withQueue q).freeCount = s.freeCount := rfl

@[simp] theorem acceptEdge_lastInterruptTick (t : Tick) : (s.acceptEdge t).lastInterruptTick = t := rfl
@[simp] theorem acceptEdge_lastFallingEdgeTick (t : Tick) : (s.acceptEdge t).lastFallingEdgeTick = s.lastFallingEdgeTick := rfl
@[simp] theorem acceptEdge_currentByte (t : Tick) : (s.acceptEdge t).currentByte = s.currentByte := rfl
@[simp] theorem acceptEdge_currentBitCount (t : Tick) : (s.acceptEdge t).currentBitCount = s.currentBitCount := rfl
@[simp] theorem acceptEdge_partialFrame (t : Tick) : (s.acceptEdge t).partialFrame = s.partialFrame := rfl
@[simp] theorem acceptEdge_q (t : Tick) : (s.acceptEdge t).q = s.q := rfl
@[simp] theorem acceptEdge_txState (t : Tick) : (s.acceptEdge t).txState = s.txState := rfl
@[simp] theorem acceptEdge_txWave (t : Tick) : (s.acceptEdge t).txWave = s.txWave := rfl
@[simp] theorem acceptEdge_txElapsed (t : Tick) : (s.acceptEdge t).txElapsed = s.txElapsed := rfl
@[simp] theorem acceptEdge_tx (t : Tick) : (s.acceptEdge t).tx = s.tx := rfl
@[simp] theorem acceptEdge_halted (t : Tick) : (s.acceptEdge t).halted = s.halted := rfl
@[simp] theorem acceptEdge_out (t : Tick) : (s.acceptEdge t).out = s.out := rfl
@[simp] theorem acceptEdge_result (t : Tick) : (s.acceptEdge t).result = s.result := rfl
@[simp] theorem acceptEdge_building (t : Tick) : (s.acceptEdge t).building = s.building := rfl
@[simp] theorem acceptEdge_inbox (t : Tick) : (s.acceptEdge t).inbox = s.inbox := rfl
@[simp] theorem acceptEdge_freeCount (t : Tick) : (s.acceptEdge t).freeCount = s.freeCount := rfl

@[simp] theorem noteFall_lastInterruptTick (t : Tick) : (s.noteFall t).lastInterruptTick = s.lastInterruptTick := rfl
@[simp] theorem noteFall_lastFallingEdgeTick (t : Tick) : (s.noteFall t).lastFallingEdgeTick = t := rfl
@[simp] theorem noteFall_currentByte (t : Tick) : (s.noteFall t).currentByte = s.currentByte := rfl
@[simp] theorem noteFall_currentBitCount (t : Tick) : (s.noteFall t).currentBitCount = s.currentBitCount := rfl
@[simp] theorem noteFall_partialFrame (t : Tick) : (s.noteFall t).partialFrame = s.partialFrame := rfl
@[simp] theorem noteFall_q (t : Tick) : (s.noteFall t).q = s.q := rfl
@[simp] theorem noteFall_txState (t : Tick) : (s.noteFall t).txState = s.txState := rfl
@[simp] theorem noteFall_txWave (t : Tick) : (s.noteFall t).txWave = s.txWave := rfl
@[simp] theorem noteFall_txElapsed (t : Tick) : (s.noteFall t).txElapsed = s.txElapsed := rfl
@[simp] theorem noteFall_tx (t : Tick) : (s.noteFall t).tx = s.tx := rfl
@[simp] theorem noteFall_halted (t : Tick) : (s.noteFall t).halted = s.halted := rfl
@[simp] theorem noteFall_out (t : Tick) : (s.noteFall t).out = s.out := rfl
@[simp] theorem noteFall_result (t : Tick) : (s.noteFall t).result = s.result := rfl
@[simp] theorem noteFall_building (t : Tick) : (s.noteFall t).building = s.building := rfl
@[simp] theorem noteFall_inbox (t : Tick) : (s.noteFall t).inbox = s.inbox := rfl
@[simp] theorem noteFall_freeCount (t : Tick) : (s.noteFall t).freeCount = s.freeCount := rfl

@[simp] theorem startWaveform_lastInterruptTick (w : Waveform) : (s.startWaveform w).lastInterruptTick = s.lastInterruptTick := rfl
@[simp] theorem startWaveform_lastFallingEdgeTick (w : Waveform) : (s.startWaveform w).lastFallingEdgeTick = s.lastFallingEdgeTick := rfl
@[simp] theorem startWaveform_currentByte (w : Waveform) : (s.startWaveform w).currentByte = s.currentByte := rfl
@[simp] theorem startWaveform_currentBitCount (w : Waveform) : (s.startWaveform w).currentBitCount = s.currentBitCount := rfl
@[simp] theorem startWaveform_partialFrame (w : Waveform) : (s.startWaveform w).partialFrame = s.partialFrame := rfl
@[simp] theorem startWaveform_q (w : Waveform) : (s.startWaveform w).q = s.q := rfl
@[simp] theorem startWaveform_txState (w : Waveform) : (s.startWaveform w).txState = .playing := rfl
@[simp] theorem startWaveform_txWave (w : Waveform) : (s.startWaveform w).txWave = w := rfl
@[simp] theorem startWaveform_txElapsed (w : Waveform) : (s.startWaveform w).txElapsed = 0 := rfl
@[simp] theorem startWaveform_tx (w : Waveform) : (s.startWaveform w).tx = .high := rfl
@[simp] theorem startWaveform_halted (w : Waveform) : (s.startWaveform w).halted = s.halted := rfl
@[simp] theorem startWaveform_out (w : Waveform) : (s.startWaveform w).out = s.out := rfl
@[simp] theorem startWaveform_result (w : Waveform) : (s.startWaveform w).result = s.result := rfl
@[simp] theorem startWaveform_building (w : Waveform) : (s.startWaveform w).building = s.building := rfl
@[simp] theorem startWaveform_inbox (w : Waveform) : (s.startWaveform w).inbox = s.inbox := rfl
@[simp] theorem startWaveform_freeCount (w : Waveform) : (s.startWaveform w).freeCount = s.freeCount := rfl

@[simp] theorem countMicrosecond_lastInterruptTick : (s.countMicrosecond).lastInterruptTick = s.lastInterruptTick := rfl
@[simp] theorem countMicrosecond_lastFallingEdgeTick : (s.countMicrosecond).lastFallingEdgeTick = s.lastFallingEdgeTick := rfl
@[simp] theorem countMicrosecond_currentByte : (s.countMicrosecond).currentByte = s.currentByte := rfl
@[simp] theorem countMicrosecond_currentBitCount : (s.countMicrosecond).currentBitCount = s.currentBitCount := rfl
@[simp] theorem countMicrosecond_partialFrame : (s.countMicrosecond).partialFrame = s.partialFrame := rfl
@[simp] theorem countMicrosecond_q : (s.countMicrosecond).q = s.q := rfl
@[simp] theorem countMicrosecond_txState : (s.countMicrosecond).txState = s.txState := rfl
@[simp] theorem countMicrosecond_txWave : (s.countMicrosecond).txWave = s.txWave := rfl
@[simp] theorem countMicrosecond_txElapsed : (s.countMicrosecond).txElapsed = s.txElapsed + 1 := rfl
@[simp] theorem countMicrosecond_tx : (s.countMicrosecond).tx = s.tx := rfl
@[simp] theorem countMicrosecond_halted : (s.countMicrosecond).halted = s.halted := rfl
@[simp] theorem countMicrosecond_out : (s.countMicrosecond).out = s.out := rfl
@[simp] theorem countMicrosecond_result : (s.countMicrosecond).result = s.result := rfl
@[simp] theorem countMicrosecond_building : (s.countMicrosecond).building = s.building := rfl
@[simp] theorem countMicrosecond_inbox : (s.countMicrosecond).inbox = s.inbox := rfl
@[simp] theorem countMicrosecond_freeCount : (s.countMicrosecond).freeCount = s.freeCount := rfl

@[simp] theorem drivePin_lastInterruptTick (l : PinLevel) : (s.drivePin l).lastInterruptTick = s.lastInterruptTick := rfl
@[simp] theorem drivePin_lastFallingEdgeTick (l : PinLevel) : (s.drivePin l).lastFallingEdgeTick = s.lastFallingEdgeTick := rfl
@[simp] theorem drivePin_currentByte (l : PinLevel) : (s.drivePin l).currentByte = s.currentByte := rfl
@[simp] theorem drivePin_currentBitCount (l : PinLevel) : (s.drivePin l).currentBitCount = s.currentBitCount := rfl
@[simp] theorem drivePin_partialFrame (l : PinLevel) : (s.drivePin l).partialFrame = s.partialFrame := rfl
@[simp] theorem drivePin_q (l : PinLevel) : (s.drivePin l).q = s.q := rfl
@[simp] theorem drivePin_txState (l : PinLevel) : (s.drivePin l).txState = s.txState := rfl
@[simp] theorem drivePin_txWave (l : PinLevel) : (s.drivePin l).txWave = s.txWave := rfl
@[simp] theorem drivePin_txElapsed (l : PinLevel) : (s.drivePin l).txElapsed = s.txElapsed := rfl
@[simp] theorem drivePin_tx (l : PinLevel) : (s.drivePin l).tx = l := rfl
@[simp] theorem drivePin_halted (l : PinLevel) : (s.drivePin l).halted = s.halted := rfl
@[simp] theorem drivePin_out (l : PinLevel) : (s.drivePin l).out = s.out := rfl
@[simp] theorem drivePin_result (l : PinLevel) : (s.drivePin l).result = s.result := rfl
@[simp] theorem drivePin_building (l : PinLevel) : (s.drivePin l).building = s.building := rfl
@[simp] theorem drivePin_inbox (l : PinLevel) : (s.drivePin l).inbox = s.inbox := rfl
@[simp] theorem drivePin_freeCount (l : PinLevel) : (s.drivePin l).freeCount = s.freeCount := rfl

@[simp] theorem enterGuard_lastInterruptTick : (s.enterGuard).lastInterruptTick = s.lastInterruptTick := rfl
@[simp] theorem enterGuard_lastFallingEdgeTick : (s.enterGuard).lastFallingEdgeTick = s.lastFallingEdgeTick := rfl
@[simp] theorem enterGuard_currentByte : (s.enterGuard).currentByte = s.currentByte := rfl
@[simp] theorem enterGuard_currentBitCount : (s.enterGuard).currentBitCount = s.currentBitCount := rfl
@[simp] theorem enterGuard_partialFrame : (s.enterGuard).partialFrame = s.partialFrame := rfl
@[simp] theorem enterGuard_q : (s.enterGuard).q = s.q := rfl
@[simp] theorem enterGuard_txState : (s.enterGuard).txState = .guard := rfl
@[simp] theorem enterGuard_txWave : (s.enterGuard).txWave = s.txWave := rfl
@[simp] theorem enterGuard_txElapsed : (s.enterGuard).txElapsed = s.txElapsed := rfl
@[simp] theorem enterGuard_tx : (s.enterGuard).tx = .low := rfl
@[simp] theorem enterGuard_halted : (s.enterGuard).halted = s.halted := rfl
@[simp] theorem enterGuard_out : (s.enterGuard).out = s.out := rfl
@[simp] theorem enterGuard_result : (s.enterGuard).result = s.result := rfl
@[simp] theorem enterGuard_building : (s.enterGuard).building = s.building := rfl
@[simp] theorem enterGuard_inbox : (s.enterGuard).inbox = s.inbox := rfl
@[simp] theorem enterGuard_freeCount : (s.enterGuard).freeCount = s.freeCount := rfl

@[simp] theorem finishSend_lastInterruptTick : (s.finishSend).lastInterruptTick = s.lastInterruptTick := rfl
@[simp] theorem finishSend_lastFallingEdgeTick : (s.finishSend).lastFallingEdgeTick = s.lastFallingEdgeTick := rfl
@[simp] theorem finishSend_currentByte : (s.finishSend).currentByte = s.currentByte := rfl
@[simp] theorem finishSend_currentBitCount : (s.finishSend).currentBitCount = s.currentBitCount := rfl
@[simp] theorem finishSend_partialFrame : (s.finishSend).partialFrame = s.partialFrame := rfl
@[simp] theorem finishSend_q : (s.finishSend).q = s.q := rfl
@[simp] theorem finishSend_txState : (s.finishSend).txState = .idle := rfl
@[simp] theorem finishSend_txWave : (s.finishSend).txWave = [] := rfl
@[simp] theorem finishSend_txElapsed : (s.finishSend).txElapsed = 0 := rfl
@[simp] theorem finishSend_tx : (s.finishSend).tx = s.tx := rfl
@[simp] theorem finishSend_halted : (s.finishSend).halted = s.halted := rfl
@[simp] theorem finishSend_out : (s.finishSend).out = s.out := rfl
@[simp] theorem finishSend_result : (s.finishSend).result = s.result := rfl
@[simp] theorem finishSend_building : (s.finishSend).building = s.building := rfl
@[simp] theorem finishSend_inbox : (s.finishSend).inbox = s.inbox := rfl
@[simp] theorem finishSend_freeCount : (s.finishSend).freeCount = s.freeCount := rfl

@[simp] theorem extendBuilding_lastInterruptTick (w : Waveform) : (s.extendBuilding w).lastInterruptTick = s.lastInterruptTick := rfl
@[simp] theorem extendBuilding_lastFallingEdgeTick (w : Waveform) : (s.extendBuilding w).lastFallingEdgeTick = s.lastFallingEdgeTick := rfl
@[simp] theorem extendBuilding_currentByte (w : Waveform) : (s.extendBuilding w).currentByte = s.currentByte := rfl
@[simp] theorem extendBuilding_currentBitCount (w : Waveform) : (s.extendBuilding w).currentBitCount = s.currentBitCount := rfl
@[simp] theorem extendBuilding_partialFrame (w : Waveform) : (s.extendBuilding w).partialFrame = s.partialFrame := rfl
@[simp] theorem extendBuilding_q (w : Waveform) : (s.extendBuilding w).q = s.q := rfl
@[simp] theorem extendBuilding_txState (w : Waveform) : (s.extendBuilding w).txState = s.txState := rfl
@[simp] theorem extendBuilding_txWave (w : Waveform) : (s.extendBuilding w).txWave = s.txWave := rfl
@[simp] theorem extendBuilding_txElapsed (w : Waveform) : (s.extendBuilding w).txElapsed = s.txElapsed := rfl
@[simp] theorem extendBuilding_tx (w : Waveform) : (s.extendBuilding w).tx = s.tx := rfl
@[simp] theorem extendBuilding_halted (w : Waveform) : (s.extendBuilding w).halted = s.halted := rfl
@[simp] theorem extendBuilding_out (w : Waveform) : (s.extendBuilding w).out = s.out := rfl
@[simp] theorem extendBuilding_result (w : Waveform) : (s.extendBuilding w).result = s.result := rfl
@[simp] theorem extendBuilding_building (w : Waveform) : (s.extendBuilding w).building = s.building ++ w := rfl
@[simp] theorem extendBuilding_inbox (w : Waveform) : (s.extendBuilding w).inbox = s.inbox := rfl
@[simp] theorem extendBuilding_freeCount (w : Waveform) : (s.extendBuilding w).freeCount = s.freeCount := rfl

@[simp] theorem setBuilding_lastInterruptTick (w : Waveform) : (s.setBuilding w).lastInterruptTick = s.lastInterruptTick := rfl
@[simp] theorem setBuilding_lastFallingEdgeTick (w : Waveform) : (s.setBuilding w).lastFallingEdgeTick = s.lastFallingEdgeTick := rfl
@[simp] theorem setBuilding_currentByte (w : Waveform) : (s.setBuilding w).currentByte = s.currentByte := rfl
@[simp] theorem setBuilding_currentBitCount (w : Waveform) : (s.setBuilding w).currentBitCount = s.currentBitCount := rfl
@[simp] theorem setBuilding_partialFrame (w : Waveform) : (s.setBuilding w).partialFrame = s.partialFrame := rfl
@[simp] theorem setBuilding_q (w : Waveform) : (s.setBuilding w).q = s.q := rfl
@[simp] theorem setBuilding_txState (w : Waveform) : (s.setBuilding w).txState = s.txState := rfl
@[simp] theorem setBuilding_txWave (w : Waveform) : (s.setBuilding w).txWave = s.txWave := rfl
@[simp] theorem setBuilding_txElapsed (w : Waveform) : (s.setBuilding w).txElapsed = s.txElapsed := rfl
@[simp] theorem setBuilding_tx (w : Waveform) : (s.setBuilding w).tx = s.tx := rfl
@[simp] theorem setBuilding_halted (w : Waveform) : (s.setBuilding w).halted = s.halted := rfl
@[simp] theorem setBuilding_out (w : Waveform) : (s.setBuilding w).out = s.out := rfl
@[simp] theorem setBuilding_result (w : Waveform) : (s.setBuilding w).result = s.result := rfl
@[simp] theorem setBuilding_building (w : Waveform) : (s.setBuilding w).building = w := rfl
@[simp] theorem setBuilding_inbox (w : Waveform) : (s.setBuilding w).inbox = s.inbox := rfl
@[simp] theorem setBuilding_freeCount (w : Waveform) : (s.setBuilding w).freeCount = s.freeCount := rfl

@[simp] theorem withInbox_lastInterruptTick (ws : List Word) : (s.withInbox ws).lastInterruptTick = s.lastInterruptTick := rfl
@[simp] theorem withInbox_lastFallingEdgeTick (ws : List Word) : (s.withInbox ws).lastFallingEdgeTick = s.lastFallingEdgeTick := rfl
@[simp] theorem withInbox_currentByte (ws : List Word) : (s.withInbox ws).currentByte = s.currentByte := rfl
@[simp] theorem withInbox_currentBitCount (ws : List Word) : (s.withInbox ws).currentBitCount = s.currentBitCount := rfl
@[simp] theorem withInbox_partialFrame (ws : List Word) : (s.withInbox ws).partialFrame = s.partialFrame := rfl
@[simp] theorem withInbox_q (ws : List Word) : (s.withInbox ws).q = s.q := rfl
@[simp] theorem withInbox_txState (ws : List Word) : (s.withInbox ws).txState = s.txState := rfl
@[simp] theorem withInbox_txWave (ws : List Word) : (s.withInbox ws).txWave = s.txWave := rfl
@[simp] theorem withInbox_txElapsed (ws : List Word) : (s.withInbox ws).txElapsed = s.txElapsed := rfl
@[simp] theorem withInbox_tx (ws : List Word) : (s.withInbox ws).tx = s.tx := rfl
@[simp] theorem withInbox_halted (ws : List Word) : (s.withInbox ws).halted = s.halted := rfl
@[simp] theorem withInbox_out (ws : List Word) : (s.withInbox ws).out = s.out := rfl
@[simp] theorem withInbox_result (ws : List Word) : (s.withInbox ws).result = s.result := rfl
@[simp] theorem withInbox_building (ws : List Word) : (s.withInbox ws).building = s.building := rfl
@[simp] theorem withInbox_inbox (ws : List Word) : (s.withInbox ws).inbox = ws := rfl
@[simp] theorem withInbox_freeCount (ws : List Word) : (s.withInbox ws).freeCount = s.freeCount := rfl

@[simp] theorem reset_lastInterruptTick : State.reset.lastInterruptTick = 0 := rfl
@[simp] theorem reset_lastFallingEdgeTick : State.reset.lastFallingEdgeTick = 0 := rfl
@[simp] theorem reset_currentByte : State.reset.currentByte = 0 := rfl
@[simp] theorem reset_currentBitCount : State.reset.currentBitCount = 0 := rfl
@[simp] theorem reset_partialFrame : State.reset.partialFrame = false := rfl
@[simp] theorem reset_q : State.reset.q = [] := rfl
@[simp] theorem reset_txState : State.reset.txState = .idle := rfl
@[simp] theorem reset_txWave : State.reset.txWave = [] := rfl
@[simp] theorem reset_txElapsed : State.reset.txElapsed = 0 := rfl
@[simp] theorem reset_tx : State.reset.tx = .low := rfl
@[simp] theorem reset_halted : State.reset.halted = false := rfl
@[simp] theorem reset_out : State.reset.out = [] := rfl
@[simp] theorem reset_result : State.reset.result = .done := rfl
@[simp] theorem reset_building : State.reset.building = [] := rfl
@[simp] theorem reset_inbox : State.reset.inbox = [] := rfl
@[simp] theorem reset_freeCount : State.reset.freeCount = 0 := rfl

end Sys2Proof.Machine
end

