-- ==== Sys2Proof/Laws/Ops.lean ====
section
/-! SUPPORT. For each shared operation, one lemma that says once everything it can do; and the
equations of the recursive functions. -/

namespace Sys2Proof.Machine

/-! ### The arms of exec -/

section Arms
variable (s : State) (v : U8) (t now : Tick) (bytes : List U8) (str : List Char) (e : EdgeEvent)

theorem exec_sync : exec .sync s = whileRunning s (appendSymbol .sync) := rfl
theorem exec_bit1 : exec .bit1 s = whileRunning s (appendSymbol .bit1) := rfl
theorem exec_bit0 : exec .bit0 s = whileRunning s (appendSymbol .bit0) := rfl
theorem exec_sGap : exec (.sGap v) s = whileRunning s gapCase := rfl
theorem exec_sOne : exec (.sOne v) s = whileRunning s (dataCase true) := rfl
theorem exec_sZero : exec (.sZero v) s = whileRunning s (dataCase false) := rfl
theorem exec_edgeFall : exec (.edgeFall t) s = whileRunning s (debounced t (fallCase t)) := rfl
theorem exec_edgeRise : exec (.edgeRise t) s = whileRunning s (debounced t (riseCase t)) := rfl
theorem exec_encode : exec (.encode bytes) s = whileRunning s fun s =>
    (s.setBuilding (encodeBytes bytes)).ret (.waveform (encodeBytes bytes)) := rfl
theorem exec_send : exec (.send str now) s =
    whileRunning s fun s => (sendCommand str now s).ret .done := rfl
theorem exec_txAdvance : exec .txAdvance s =
    .next (if s.halted then s.freePin.ret .noStep else (advanceMicrosecond s).ret .done) := rfl
theorem exec_onEdge : exec (.onEdge e) s = whileRunning s (debounced e.timestamp (edgeCase e)) := rfl
theorem exec_isIdle : exec (.isIdle now) s =
    whileRunning s fun s => s.ret (.idle (isIdle now s)) := rfl
theorem exec_decSample : exec .decSample s = whileRunning s decodeNext := rfl
theorem exec_decFlush : exec (.decFlush now) s =
    whileRunning s fun s => if decFlushEnabled now s then flushFrame s else s.ret .noStep := rfl
theorem exec_reset : exec .reset s =
    .next { State.reset with inbox := s.inbox, freeCount := s.freeCount } := rfl
theorem exec_hwFail : exec .hwFail s =
    whileRunning s fun s => (raise .hardwareUnavailable s).ret .done := rfl

end Arms

/-! ### The shared operations -/

theorem whileRunning_running {s : State} (h : s.halted = false) (op : State → State) :
    whileRunning s op = .next (op s) := by simp [whileRunning, h]

theorem whileRunning_halted {s : State} (h : s.halted = true) (op : State → State) :
    whileRunning s op = .next (s.ret .noStep) := by simp [whileRunning, h]

/-- All that a gated operation can answer. -/
theorem whileRunning_cases {s t : State} {op : State → State} (h : whileRunning s op = .next t) :
    (s.halted = true ∧ t = s.ret .noStep) ∨ (s.halted = false ∧ t = op s) := by
  cases hs : s.halted
  · rw [whileRunning_running hs] at h; cases h; simp
  · rw [whileRunning_halted hs] at h; cases h; simp

@[simp] theorem raise_malformedCommand (s : State) :
    raise .malformedCommand s = s.emit (.sendResult .malformedCommand) := rfl
@[simp] theorem raise_busBusy (s : State) : raise .busBusy s = s.emit (.sendResult .busBusy) := rfl
@[simp] theorem raise_strayBitsDiscarded (n : Nat) (s : State) :
    raise (.strayBitsDiscarded n) s = (s.emit (.strayBitsDiscarded n)).clearAccumulator := rfl
@[simp] theorem raise_hardwareUnavailable (s : State) :
    raise .hardwareUnavailable s = s.halt.freePin := rfl

/-- All that a condition of `SEND` can do: one event, and no other field. -/
theorem sendCommand_cases (str : List Char) (now : Tick) (s : State) :
    (parseHex str = none ∧ sendCommand str now s = s.emit (.sendResult .malformedCommand)) ∨
    (∃ bytes, parseHex str = some bytes ∧ (txBusy s = true ∨ isIdle now s = false) ∧
      sendCommand str now s = s.emit (.sendResult .busBusy)) ∨
    (∃ bytes, parseHex str = some bytes ∧ txBusy s = false ∧ isIdle now s = true ∧
      sendCommand str now s = s.startWaveform (encodeBytes bytes)) := by
  unfold sendCommand
  cases parseHex str with
  | none => exact .inl ⟨rfl, rfl⟩
  | some bytes => cases hb : txBusy s <;> cases hi : isIdle now s <;> simp

/-- All that one microsecond can do in a running block. -/
theorem advanceMicrosecond_cases (s : State) :
    (s.txState = .idle ∧ advanceMicrosecond s = s) ∨
    (s.txState = .playing ∧ s.txElapsed + 1 < duration s.txWave ∧
      advanceMicrosecond s = s.countMicrosecond.drivePin (levelAt s.txWave (s.txElapsed + 1))) ∨
    (s.txState = .playing ∧ duration s.txWave ≤ s.txElapsed + 1 ∧
      s.txElapsed + 1 < duration s.txWave + params.tGuard ∧
      advanceMicrosecond s = s.countMicrosecond.enterGuard) ∨
    (s.txState = .playing ∧ duration s.txWave + params.tGuard ≤ s.txElapsed + 1 ∧
      advanceMicrosecond s = (s.countMicrosecond.enterGuard.finishSend.emit (.sendResult .ok))) ∨
    (s.txState = .guard ∧ s.txElapsed + 1 < duration s.txWave + params.tGuard ∧
      advanceMicrosecond s = s.countMicrosecond) ∨
    (s.txState = .guard ∧ duration s.txWave + params.tGuard ≤ s.txElapsed + 1 ∧
      advanceMicrosecond s = (s.countMicrosecond.finishSend.emit (.sendResult .ok))) := by
  rcases hs : s.txState with _ | _ | _
  · simp [advanceMicrosecond, hs]
  · by_cases h₁ : s.txElapsed + 1 < duration s.txWave
    · simp [advanceMicrosecond, playStep, guardStep, hs, h₁]
    · by_cases h₂ : duration s.txWave + 20000 ≤ s.txElapsed + 1
      · simp [advanceMicrosecond, playStep, guardStep, hs, h₁, h₂]
      · simp [advanceMicrosecond, playStep, guardStep, hs, h₁, h₂]; omega
  · by_cases h₂ : duration s.txWave + 20000 ≤ s.txElapsed + 1
    · simp [advanceMicrosecond, playStep, guardStep, hs, h₂]
    · simp [advanceMicrosecond, playStep, guardStep, hs, h₂]; omega

/-- All that an edge event can do in a running block. -/
theorem debounced_cases (t : Tick) (case : State → State) (s : State) :
    (bounces t s = true ∧ debounced t case s = s.ret (.sample none)) ∨
    (bounces t s = false ∧ debounced t case s = case (s.acceptEdge t)) := by
  cases h : bounces t s <;> simp [debounced, h]

/-- All that `DEC_SAMPLE` can do in a running block. -/
theorem decodeNext_cases (s : State) :
    (s.q = [] ∧ decodeNext s = s.ret .noStep) ∨
    (∃ v rest, s.q = v :: rest ∧ decodeNext s = processSample v (s.withQueue rest)) := by
  cases h : s.q with
  | nil => simp [decodeNext, qPop, h]
  | cons v rest => exact .inr ⟨v, rest, rfl, by simp [decodeNext, qPop, h]⟩

/-- All that a gap can do. -/
theorem gapCase_cases (s : State) :
    (s.partialFrame = true ∧ s.currentBitCount ≠ 0 ∧
      gapCase s = (((s.emit (.strayBitsDiscarded s.currentBitCount)).clearAccumulator).clearAccumulator).ret .done) ∨
    ((s.partialFrame = false ∨ s.currentBitCount = 0) ∧ gapCase s = s.clearAccumulator.ret .done) := by
  by_cases h : s.partialFrame = true ∧ s.currentBitCount ≠ 0
  · exact .inl ⟨h.1, h.2, by simp [gapCase, h, discardStrayBits]⟩
  · refine .inr ⟨?_, by simp [gapCase, h]⟩
    by_cases hp : s.partialFrame = true
    · exact .inr (by simpa [hp] using h)
    · exact .inl (by simpa using hp)

/-- All that a data bit can do. -/
theorem dataCase_cases (v : Bool) (s : State) :
    (s.currentBitCount = 7 ∧
      dataCase v s =
        ((s.storeBit v).emit (.byte (s.storeBit v).currentByte)).clearAccumulator.ret .done) ∨
    (s.currentBitCount ≠ 7 ∧ dataCase v s = (s.storeBit v).ret .done) := by
  by_cases h : s.currentBitCount = 7 <;> simp [dataCase, completeByte, h]

/-- All that one popped sample can do. -/
theorem processSample_cases (v : U8) (s : State) :
    (classify v = .gap ∧ processSample v s = gapCase s) ∨
    (classify v = .one ∧ processSample v s = dataCase true s) ∨
    (classify v = .zero ∧ processSample v s = dataCase false s) := by
  cases h : classify v <;> simp [processSample, h]

/-- All that an enabled flush can do. -/
theorem flushFrame_cases (s : State) :
    (s.currentBitCount = 0 ∧ flushFrame s = ((s.emit .frameEnd).clearPartial).ret .done) ∨
    (s.currentBitCount ≠ 0 ∧
      flushFrame s =
        ((((s.emit (.strayBitsDiscarded s.currentBitCount)).clearAccumulator).emit .frameEnd).clearPartial).ret
          .done) := by
  by_cases h : s.currentBitCount = 0 <;> simp [flushFrame, discardStrayBits, h]

/-- `IS_IDLE` in numbers. -/
theorem isIdle_iff (now : Tick) (s : State) :
    isIdle now s = true ↔ 21800 < (tdiff now s.lastFallingEdgeTick).toNat := decide_eq_true_iff

/-- The debounce test in numbers. -/
theorem bounces_iff (t : Tick) (s : State) :
    bounces t s = true ↔ (tdiff t s.lastInterruptTick).toNat < 100 := decide_eq_true_iff

/-- "Transmit busy" in terms of the sequencer. -/
theorem txBusy_iff (s : State) : txBusy s = true ↔ s.txState ≠ .idle := decide_eq_true_iff

/-- The enabling condition of `DEC_FLUSH`, clause by clause. -/
theorem decFlushEnabled_iff (now : Tick) (s : State) :
    decFlushEnabled now s = true ↔
      s.halted = false ∧ s.q = [] ∧ s.partialFrame = true ∧ isIdle now s = true := by
  simp [decFlushEnabled, and_assoc]

/-- The class of a sample in numbers: one of three cases. -/
theorem classify_cases (v : U8) :
    (2000 < v.toNat * 10 ∧ classify v = .gap) ∨
    (v.toNat * 10 ≤ 2000 ∧ 900 < v.toNat * 10 ∧ classify v = .one) ∨
    (v.toNat * 10 ≤ 900 ∧ classify v = .zero) := by
  by_cases h₁ : 2000 < v.toNat * 10
  · exact .inl ⟨h₁, if_pos h₁⟩
  · by_cases h₂ : 900 < v.toNat * 10
    · exact .inr (.inl ⟨by omega, h₂, (if_neg h₁).trans (if_pos h₂)⟩)
    · exact .inr (.inr ⟨by omega, (if_neg h₁).trans (if_neg h₂)⟩)

/-! ### The queue keeps its form -/

theorem queueWf_iff (q : List U8) : queueWf q = true ↔ q.length ≤ 200 :=
  decide_eq_true_iff

theorem queueWf_qPush {q : List U8} (h : queueWf q = true) (v : U8) : queueWf (qPush q v) = true := by
  rw [queueWf_iff] at *
  unfold qPush
  split <;> simp_all
  omega

theorem queueWf_qPop {q rest : List U8} {v : U8} (h : queueWf q = true) (hp : qPop q = some (v, rest)) :
    queueWf rest = true := by
  rw [queueWf_iff] at *
  cases q with
  | nil => simp [qPop] at hp
  | cons a l => simp [qPop] at hp; simp at h; obtain ⟨-, rfl⟩ := hp; omega

theorem queueWf_reset : queueWf State.reset.q = true := rfl

/-! ### Waveforms and runs -/

@[simp] theorem duration_nil : duration [] = 0 := rfl
@[simp] theorem duration_cons (seg : Segment) (w : Waveform) :
    duration (seg :: w) = seg.duration + duration w := by simp [duration]
@[simp] theorem duration_append (w w' : Waveform) : duration (w ++ w') = duration w + duration w' := by
  simp [duration]

theorem encodeBytes_nil : encodeBytes [] = symbolSegments .sync := rfl

theorem encodeBytes_append (bytes more : List U8) :
    encodeBytes (bytes ++ more) =
      encodeBytes bytes ++ more.flatMap fun b => (byteBits b).flatMap fun v => symbolSegments (bitSymbol v) := by
  simp [encodeBytes, frameSymbols, List.flatMap_append, List.flatMap_assoc, List.flatMap_map]

@[simp] theorem levelAt_nil (e : Nat) : levelAt [] e = .low := rfl
theorem levelAt_cons_lt {seg : Segment} {e : Nat} (h : e < seg.duration) (w : Waveform) :
    levelAt (seg :: w) e = seg.level := by simp [levelAt, h]
theorem levelAt_cons_ge {seg : Segment} {e : Nat} (h : seg.duration ≤ e) (w : Waveform) :
    levelAt (seg :: w) e = levelAt w (e - seg.duration) := by
  simp [levelAt, Nat.not_lt.mpr h]

@[simp] theorem performAll_nil (s : State) : performAll [] s = .next s := rfl

theorem performAll_cons {i : Instr} {s t : State} (h : exec i s = .next t) (ops : List Instr) :
    performAll (i :: ops) s = performAll ops t := by simp [performAll, h]

theorem performAll_append {ops more : List Instr} {s t : State} (h : performAll ops s = .next t) :
    performAll (ops ++ more) s = performAll more t := by
  induction ops generalizing s with
  | nil => cases h; rfl
  | cons i ops ih =>
    rw [List.cons_append]
    simp only [performAll] at h ⊢
    split at h <;> simp_all

@[simp] theorem noFlushFires_nil (s : State) : noFlushFires [] s = true := rfl

/-- What the absence of an enabled flush says of the first operation and of the rest. -/
theorem noFlushFires_cons {i : Instr} {s t : State} (h : exec i s = .next t) (ops : List Instr) :
    noFlushFires (i :: ops) s = true ↔
      (∀ now, i = .decFlush now → decFlushEnabled now s = false) ∧ noFlushFires ops t = true := by
  cases i <;> simp [noFlushFires, h]

/-- A flush is not enabled on a bus that is not idle. -/
theorem decFlushEnabled_of_not_idle {now : Tick} {s : State} (h : isIdle now s = false) :
    decFlushEnabled now s = false := by simp [decFlushEnabled, h]

/-! ### One step -/

theorem step_waits {s : State} (h : s.inbox = []) : step s = .next s := by
  unfold step; rw [h]

theorem step_performs {s : State} {w : Word} {rest : List Word} {i : Instr} (h : s.inbox = w :: rest)
    (hd : decode w = .ok i) : step s = exec i (s.withInbox rest) := by
  unfold step; rw [h]; simp [hd]

theorem step_refuses {s : State} {w : Word} {rest : List Word} {e : DecodeError}
    (h : s.inbox = w :: rest) (hd : decode w = .error e) : step s = .refused (.undecodable e) := by
  unfold step; rw [h]; simp [hd]

/-- All that a step can answer with a next state. -/
theorem step_cases {s t : State} (h : step s = .next t) :
    (s.inbox = [] ∧ t = s) ∨
    (∃ w rest i, s.inbox = w :: rest ∧ decode w = .ok i ∧ exec i (s.withInbox rest) = .next t) := by
  cases hb : s.inbox with
  | nil => rw [step_waits hb] at h; cases h; exact .inl ⟨rfl, rfl⟩
  | cons w rest =>
    cases hd : decode w with
    | error e => rw [step_refuses hb hd] at h; cases h
    | ok i => rw [step_performs hb hd] at h; exact .inr ⟨w, rest, i, rfl, hd, h⟩

end Sys2Proof.Machine
end

