-- ==== Sys2Proof/Laws/PerInstr.lean ====
section
/-! SUPPORT. Statements for all operations, one lemma per constructor: every operation's encoding
travels on the carrier of its row's format (30_encoding.md R45, R62). -/

namespace Sys2Proof.Laws.CarrierFormat

/-- The encoded operation is on the carrier of its row's format. -/
def Statement (i : Instr) : Prop := wordFormat (Sys2Proof.encode i) = instrFormat i

theorem sync : Statement .sync := rfl
theorem bit1 : Statement .bit1 := rfl
theorem bit0 : Statement .bit0 := rfl
theorem sGap (v : U8) : Statement (.sGap v) := rfl
theorem sOne (v : U8) : Statement (.sOne v) := rfl
theorem sZero (v : U8) : Statement (.sZero v) := rfl
theorem edgeFall (t : Tick) : Statement (.edgeFall t) := rfl
theorem edgeRise (t : Tick) : Statement (.edgeRise t) := rfl
theorem encode (bytes : List U8) : Statement (.encode bytes) := rfl
theorem send (str : List Char) (now : Tick) : Statement (.send str now) := rfl
theorem txAdvance : Statement .txAdvance := rfl
theorem onEdge (e : EdgeEvent) : Statement (.onEdge e) := rfl
theorem isIdle (now : Tick) : Statement (.isIdle now) := rfl
theorem decSample : Statement .decSample := rfl
theorem decFlush (now : Tick) : Statement (.decFlush now) := rfl
theorem reset : Statement .reset := rfl
theorem hwFail : Statement .hwFail := rfl

end Sys2Proof.Laws.CarrierFormat
end

