-- ==== Sys2Proof/Tests/Slice0.lean ====
section
/-! SUPPORT. Small tests: ill-formed terms, words written out from the encodings, one or two vectors of
95_test_vectors.md per operation (each named by the vector's id), and a witness for the hypotheses of
each statement that has some. -/

namespace Sys2Proof.Tests

open Sys2Proof.Machine

/-- The state an operation answers with. -/
def after : Result → State
  | .next s => s
  | .fault _ => State.reset
  | .refused _ => State.reset

/-- The operation a word decodes to. -/
def decoded (w : Word) : Option Instr :=
  match decode w with
  | .ok i => some i
  | .error _ => none

/-- A decoder state, as section 2.6 of 95_test_vectors.md writes it. -/
def decoder (cb : U8) (cnt : Nat) (pf : Bool) (q : List U8) : State :=
  { State.reset with currentByte := cb, currentBitCount := cnt, partialFrame := pf, q := q }

/-- A filter state, as section 2.4 writes it. -/
def filter (lit lfe : Tick) (q : List U8) : State :=
  { State.reset with lastInterruptTick := lit, lastFallingEdgeTick := lfe, q := q }

/-- A transmit state in which the waveform of `bytes` has run for `elapsed`. -/
def sending (st : TxState) (bytes : List U8) (elapsed : Nat) (l : PinLevel) : State :=
  { State.reset with txState := st, txWave := encodeBytes bytes, txElapsed := elapsed, tx := l }

/-- The decoder's three fields. -/
def decoderOf (s : State) : U8 × Nat × Bool := (s.currentByte, s.currentBitCount, s.partialFrame)

/-- The filter's two registers and the queue. -/
def filterOf (s : State) : Tick × Tick × List U8 := (s.lastInterruptTick, s.lastFallingEdgeTick, s.q)

/-! ### Ill-formed terms (30_encoding.md R51) -/

theorem test_wf_sGap : (Instr.sGap 200).wellFormed = false ∧ (Instr.sGap 201).wellFormed = true := by decide
theorem test_wf_sOne_low : (Instr.sOne 90).wellFormed = false ∧ (Instr.sOne 91).wellFormed = true := by decide
theorem test_wf_sOne_high : (Instr.sOne 201).wellFormed = false ∧ (Instr.sOne 200).wellFormed = true := by decide
theorem test_wf_sZero : (Instr.sZero 91).wellFormed = false ∧ (Instr.sZero 90).wellFormed = true := by decide

/-! ### Words written out (30_encoding.md R47, R51, R53, R62) -/

theorem test_word_sync : decoded (.wire [true, true, true, true, false]) = some .sync := by decide
theorem test_word_bit1 : decoded (.wire [true, true, false]) = some .bit1 := by decide
theorem test_word_bit0 : decoded (.wire [true, false]) = some .bit0 := by decide
theorem test_word_no_symbol : decoded (.wire [true, true, true, false]) = none := by decide
theorem test_word_sGap : decoded (.sample8 0b11110000#8) = some (.sGap 240) := by decide
theorem test_word_sOne : decoded (.sample8 0b01111000#8) = some (.sOne 120) := by decide
theorem test_word_sZero : decoded (.sample8 0b00111100#8) = some (.sZero 60) := by decide
theorem test_word_edgeFall :
    decoded (.edge 0b011111111111111111111111100000000#33) = some (.edgeFall 0xFFFFFF00) := by decide
theorem test_word_edgeRise :
    decoded (.edge 0b100000000000000000000000101011000#33) = some (.edgeRise 344) := by decide
theorem test_word_encode : decoded (.op "ENCODE" (.bytes [0xA5])) = some (.encode [0xA5]) := by decide
theorem test_word_send : decoded (.op "SEND" (.command ['A', '5'] 9)) = some (.send ['A', '5'] 9) := by decide
theorem test_word_txAdvance : decoded (.op "TX_ADVANCE" .nothing) = some .txAdvance := by decide
theorem test_word_onEdge :
    decoded (.op "ON_EDGE" (.event ⟨.high, 5⟩)) = some (.onEdge ⟨.high, 5⟩) := by decide
theorem test_word_isIdle : decoded (.op "IS_IDLE" (.tick 3)) = some (.isIdle 3) := by decide
theorem test_word_decSample : decoded (.op "DEC_SAMPLE" .nothing) = some .decSample := by decide
theorem test_word_decFlush : decoded (.op "DEC_FLUSH" (.tick 3)) = some (.decFlush 3) := by decide
theorem test_word_reset : decoded (.op "RESET" .nothing) = some .reset := by decide
theorem test_word_hwFail : decoded (.op "HW_FAIL" .nothing) = some .hwFail := by decide
theorem test_word_no_operation : decode (.op "HALT" .nothing) = .error .unknownOperation := by rfl
theorem test_word_wrong_operands : decode (.op "SEND" .nothing) = .error .wrongOperands := by rfl
theorem test_table_words :
    [decodeTableWord 8 30, decodeTableWord 8 6, decodeTableWord 8 2, decodeTableWord 8 240,
      decodeTableWord 40 0x100000158, decodeTableWord 40 0x158, decodeTableWord 16 3] =
    [some .sync, some .bit1, some .bit0, some (.sGap 240), some (.edgeRise 344), some (.edgeFall 344), none] := by
  decide

/-! ### Arithmetic (vectors A1 to A11) -/

theorem test_A2 : tdiff 0x00000158 0xFFFFFF00 = 600 := by decide
theorem test_A4 : (tdiff 5000 5100).toNat = 4294967196 := by decide
theorem test_A8_A9_A10 : [quant 909, quant 910, quant 2009, quant 2010, quant 2549, quant 2559] =
    [90, 91, 200, 201, 254, 255] := by decide
theorem test_A11 : [raw 0, raw 90, raw 91, raw 200, raw 201, raw 255] = [0, 900, 910, 2000, 2010, 2550] := by
  decide
theorem test_R55 : parseHex "c02e".toList = some [0xC0, 0x2E] ∧ parseHex "C02E".toList = some [0xC0, 0x2E] ∧
    parseHex [] = some [] := by decide
theorem test_T2 : ["G0", "0xA5", "A5 ", " A5", "A", "A5F"].map (fun x => parseHex x.toList) =
    [none, none, none, none, none, none] := by decide
theorem test_R57 : renderText [.byte 0xC0, .byte 0x2E, .frameEnd] = ['C', '0', '2', 'E', '\n'] := by decide

/-! ### The Pulse Encoder (vectors E1 to E7) -/

theorem test_exec_sync : (after (exec .sync State.reset)).building = [⟨.high, 2400⟩, ⟨.low, 600⟩] := by decide
theorem test_exec_bit1 : (after (exec .bit1 State.reset)).building = [⟨.high, 1200⟩, ⟨.low, 600⟩] := by decide
theorem test_exec_bit0 : (after (exec .bit0 State.reset)).building = [⟨.high, 600⟩, ⟨.low, 600⟩] := by decide
theorem test_E4_E1 : (after (exec (.encode [0xA5]) State.reset)).result = .waveform
    [⟨.high, 2400⟩, ⟨.low, 600⟩, ⟨.high, 1200⟩, ⟨.low, 600⟩, ⟨.high, 600⟩, ⟨.low, 600⟩, ⟨.high, 1200⟩,
     ⟨.low, 600⟩, ⟨.high, 600⟩, ⟨.low, 600⟩, ⟨.high, 600⟩, ⟨.low, 600⟩, ⟨.high, 1200⟩, ⟨.low, 600⟩,
     ⟨.high, 600⟩, ⟨.low, 600⟩, ⟨.high, 1200⟩, ⟨.low, 600⟩] ∧
    encodeBytes [] = [⟨.high, 2400⟩, ⟨.low, 600⟩] := by decide
theorem test_E7 : duration (encodeBytes [0xC0, 0x2E]) = 25800 := by decide

/-! ### The transmit path (vectors T1 to T10 and the pin timeline) -/

theorem test_T4 : (after (exec (.send "a5".toList 1000000) State.reset)).txState = .playing ∧
    (after (exec (.send "a5".toList 1000000) State.reset)).tx = .high := by decide
theorem test_T3 : (after (exec (.send "A5F".toList 0) (sending .playing [] 0 .high))).out =
    [.sendResult .malformedCommand] := by decide
theorem test_timeline_4199 :
    (after (exec .txAdvance (sending .playing [0xA5] 4198 .high))).tx = .high ∧
    (after (exec .txAdvance (sending .playing [0xA5] 4199 .high))).tx = .low := by decide
theorem test_timeline_35000 :
    (after (exec .txAdvance (sending .playing [0xA5] 14999 .low))).txState = .guard ∧
    (after (exec .txAdvance (sending .guard [0xA5] 34998 .low))).txState = .guard ∧
    (after (exec .txAdvance (sending .guard [0xA5] 34999 .low))).txState = .idle ∧
    (after (exec .txAdvance (sending .guard [0xA5] 34999 .low))).out = [.sendResult .ok] := by decide

/-! ### The Edge Event Filter (vectors F1 to F15) -/

theorem test_F1 : filterOf (after (exec (.edgeFall 3000) (filter 1000 400 []))) = (3000, 3000, []) := by decide
theorem test_F5 : filterOf (after (exec (.edgeFall 3050) (filter 3000 3000 []))) = (3000, 3000, []) := by decide
theorem test_F2 : filterOf (after (exec (.edgeRise 4200) (filter 3000 3000 []))) = (4200, 3000, [120]) := by decide
theorem test_F4 : filterOf (after (exec (.edgeRise 3100) (filter 3000 3000 []))) = (3100, 3000, [10]) := by decide
theorem test_F8 : filterOf (after (exec (.onEdge ⟨.high, 0x158⟩) (filter 0xFFFFFF00 0xFFFFFF00 []))) =
    (0x158, 0xFFFFFF00, [60]) := by decide
theorem test_F3 : (after (exec (.onEdge ⟨.high, 3099⟩) (filter 3000 3000 []))).result = .sample none := by decide

/-! ### The Bus Idle Detector (vectors I4, I5) -/

theorem test_I4 : (after (exec (.isIdle 1035000) (filter 0 1013200 []))).result = .idle false ∧
    (after (exec (.isIdle 1035001) (filter 0 1013200 []))).result = .idle true := by decide
theorem test_I5 : (after (exec (.isIdle 0x4528) (filter 0 0xFFFFF000 []))).result = .idle false ∧
    (after (exec (.isIdle 0x4529) (filter 0 0xFFFFF000 []))).result = .idle true := by decide

/-! ### The Pulse Decoder (vectors DS1 to DS14, L1 to L7) -/

theorem test_DS7 : decoderOf (after (exec (.sGap 201) (decoder 0b10100000 3 true []))) = (0, 0, true) ∧
    (after (exec (.sGap 201) (decoder 0b10100000 3 true []))).out = [.strayBitsDiscarded 3] := by decide
theorem test_DS8 : (after (exec (.sGap 240) (decoder 0 0 false []))).out = [] := by decide
theorem test_DS5 : decoderOf (after (exec (.sOne 91) (decoder 0b10000000 1 true []))) = (0b11000000, 2, true) := by
  decide
theorem test_DS4 : decoderOf (after (exec (.sZero 90) (decoder 0b10000000 1 true []))) = (0b10000000, 2, true) := by
  decide
theorem test_DS14 :
    (after (exec (.sZero 60) (decoder 0b11111111 0 true []))).currentByte = 0b01111111 := by decide
theorem test_DS10 : (after (exec .decSample (decoder 0b10100100 7 true [120, 60]))).out = [.byte 0xA5] ∧
    (after (exec .decSample (decoder 0b10100100 7 true [120, 60]))).q = [60] := by decide
theorem test_DS6 : decoderOf (after (exec .decSample (decoder 0b10000000 1 true [200]))) =
    (0b11000000, 2, true) := by decide
theorem test_L5 : (after (exec (.decFlush 21801) (decoder 0b10100000 3 true []))).out =
      [.strayBitsDiscarded 3, .frameEnd] ∧
    decoderOf (after (exec (.decFlush 21801) (decoder 0b10100000 3 true []))) = (0, 0, false) := by decide
theorem test_L1_L4 : (after (exec (.decFlush 21800) (decoder 0 0 true []))).result = .noStep ∧
    (after (exec (.decFlush 21801) (decoder 0 0 true [60]))).result = .noStep := by decide

/-! ### RESET, HW_FAIL, the step -/

theorem test_hwFail : (after (exec .hwFail (decoder 0 3 true []))).halted = true ∧
    (after (exec .hwFail (decoder 0 3 true []))).currentBitCount = 3 := by decide
theorem test_T10 : after (exec (.send "A5".toList 1000000) { State.reset with halted := true }) =
    { State.reset with halted := true, result := .noStep } := by decide
theorem test_reset : (after (exec .reset { sending .playing [0xA5] 7 .high with halted := true })).tx = .low ∧
    (after (exec .reset { sending .playing [0xA5] 7 .high with halted := true })).halted = false := by decide
theorem test_step : (after (step (State.reset.withFetchWord 8 240))).result = .done ∧
    (after (step (State.reset.withFetchWord 40 0x100000158))).q = [34] := by decide
theorem test_step_refuses :
    step { State.reset with inbox := [.wire [true]] } = .refused (.undecodable .unknownSymbol) := by rfl

/-! ### Witnesses: hypotheses that are met together, each clause at a boundary -/

theorem witness_StepPerformsTheDecodedOperation :
    { State.reset with inbox := [.wire [true, false]] }.inbox = [.wire [true, false]] ∧
    decode (.wire [true, false]) = .ok .bit0 ∧ decode (.wire [false]) = .error .unknownSymbol ∧
    decodeTableWord 8 255 = some (.sGap 255) := ⟨rfl, rfl, rfl, by decide⟩

theorem witness_DecodeInvertsEncode : (Instr.sOne 91).wellFormed = true ∧
    (Instr.sOne 200).wellFormed = true ∧ (Instr.sZero 90).wellFormed = true ∧
    (Instr.sGap 201).wellFormed = true := by decide

theorem witness_DecodeIsExact : decode (.sample8 200) = .ok (.sOne 200) ∧
    decode (.op "BREAK" .nothing) = .error .unknownOperation := ⟨rfl, rfl⟩

theorem witness_LinedUpOperationsRunInOrder :
    ∀ i ∈ [Instr.sGap 201, .txAdvance, .sZero 90], i.wellFormed = true := by decide

theorem witness_TickDifferenceIsModular : (0 : Nat) ≤ 2 ^ 32 + 5 := by decide

theorem witness_CommandStringParses : parseHex "fF".toList = some [0xFF] ∧ parseHex "F".toList = none ∧
    parseHex "/0".toList = none ∧ hexVal 'a' = some 10 ∧ hexVal '9' = some 9 ∧
    "0123456789abcdef".toList[15]? = some 'f' ∧ "0123456789ABCDEF".toList[16]? = none ∧
    (("fF".toList[2 * 0]?).bind hexVal = some 15 ∧ ("fF".toList[2 * 0 + 1]?).bind hexVal = some 15) := by decide

/-- For the statements whose only premise is a running block: EncodeReturnsTheFrame,
WireSymbolsExtendTheWaveform, SymbolOperationsBuildEncode and HwFailHaltsAndFreesThePin. -/
theorem witness_running : State.reset.halted = false ∧ State.reset.building = [] := by decide

theorem witness_EncodeHasTheFrameShape :
    (encodeBytes [0x80])[0]? = some ⟨.high, 2400⟩ ∧ (encodeBytes [0x80])[17]? = some ⟨.low, 600⟩ ∧
    (encodeBytes [0x80])[2]? = some ⟨.high, 1200⟩ ∧ (encodeBytes [0x80])[16]? = some ⟨.high, 600⟩ := by decide

theorem witness_EncodeIsInjective : encodeBytes [0x80] = encodeBytes [0x80] ∧
    encodeBytes [0x80] ≠ encodeBytes [0x01] := by decide

theorem witness_FrameOnTheBus : (busEdges (encodeBytes []) 7)[0]? = some ⟨.low, 7⟩ ∧
    (busEdges (encodeBytes []) 7)[1]? = some ⟨.high, 2407⟩ := by decide

theorem witness_OwnFrameLastFall :
    (filter 0 (7 + BitVec.ofNat 32 (duration (encodeBytes [0x01]) - 1800)) []).lastFallingEdgeTick = 11407 ∧
    (filter 0 (7 + BitVec.ofNat 32 (duration (encodeBytes [0x80]) - 1200)) []).lastFallingEdgeTick = 12007 ∧
    (filter 0 (7 + BitVec.ofNat 32 (duration (encodeBytes []) - 3000)) []).lastFallingEdgeTick = 7 := by decide

theorem witness_MalformedCommandChangesNothing : (sending .playing [] 5 .high).halted = false ∧
    parseHex "A5F".toList = none := by decide

theorem witness_BusySendChangesNothing : parseHex "A5".toList = some [0xA5] ∧
    (sending .guard [] 3000 .low).txState ≠ .idle ∧ (sending .guard [] 3000 .low).halted = false ∧
    State.reset.halted = false ∧ (tdiff 21800 State.reset.lastFallingEdgeTick).toNat ≤ 21800 := by decide

theorem witness_IdleSendIsAccepted : State.reset.halted = false ∧ parseHex [] = some [] ∧
    State.reset.txState = .idle ∧ 21800 < (tdiff 21801 State.reset.lastFallingEdgeTick).toNat := by decide

theorem witness_MicrosecondAdvancesTheSequencer :
    State.reset.txState = .idle ∧
    ((sending .playing [] 2998 .low).txElapsed + 1 < duration (sending .playing [] 2998 .low).txWave) ∧
    (duration (sending .playing [] 2999 .low).txWave ≤ (sending .playing [] 2999 .low).txElapsed + 1 ∧
      (sending .playing [] 2999 .low).txElapsed + 1 < duration (sending .playing [] 2999 .low).txWave + 20000) ∧
    ((sending .guard [] 22998 .low).txElapsed + 1 < duration (sending .guard [] 22998 .low).txWave + 20000) ∧
    (duration (sending .guard [] 22999 .low).txWave + 20000 ≤ (sending .guard [] 22999 .low).txElapsed + 1) ∧
    (sending .guard [] 22999 .low).halted = false := by decide

theorem witness_LevelIsThatOfTheCoveringSegment :
    (encodeBytes [])[1]? = some ⟨.low, 600⟩ ∧ duration ((encodeBytes []).take 1) ≤ 2400 ∧
    2999 < duration ((encodeBytes []).take 1) + 600 := by decide

theorem witness_AcceptedWaveformRunsToCompletion : State.reset.halted = false ∧
    State.reset.txState = .idle ∧ parseHex "A5".toList = some [0xA5] ∧ isIdle 1000000 State.reset = true ∧
    (∀ i ∈ [Instr.send ['0', '0'] 1, .txAdvance, .decSample, .onEdge ⟨.low, 7⟩], endsBlock i = false) ∧
    microseconds [.send ['0', '0'] 1, .txAdvance, .decSample] < duration (encodeBytes [0xA5]) + 20000 := by
  decide

/-- The clause about the end of the guard: 22999 microseconds and one more. -/
theorem witness_AcceptedWaveform_last_microsecond :
    microseconds (List.replicate 22999 .txAdvance) + 1 = duration (encodeBytes []) + 20000 ∧
    (∀ i ∈ List.replicate 22999 Instr.txAdvance, endsBlock i = false) := by
  refine ⟨?_, fun i hi => ?_⟩
  · rw [microseconds, List.count_replicate_self]; decide
  · rw [List.eq_of_mem_replicate hi]; rfl

theorem witness_SendIsBusyUntilTheGuardEnds : isIdle (BitVec.ofNat 32 1000000) State.reset = true ∧
    parseHex "A5".toList = some [0xA5] ∧ parseHex [] = some [] ∧
    Orderly 1000000 0 [.onEdge ⟨.low, BitVec.ofNat 32 999999⟩, .txAdvance] 1000001 ∧
    1000001 < 1000000 + duration (encodeBytes [0xA5]) + 20000 :=
  ⟨by decide, by decide, by decide, .edge (by decide) (by decide) (.advance .nil), by decide⟩

/-- A state with the invariant, at the edges of its ranges: seven bits held, a full queue, the last
microsecond of a guard. -/
def edgeState : State :=
  { sending .guard [] 22999 .low with currentByte := 0b11111110, currentBitCount := 7, partialFrame := true,
                                      q := List.replicate 200 240 }

theorem witness_invariant : Inv edgeState := by
  constructor
  · exact (queueWf_iff _).2 (by rw [edgeState]; exact List.length_replicate.le)
  · decide
  · decide
  · intro i hi
    have : i = 0 := by simp [edgeState] at hi; omega
    subst this; decide
  · decide
  · decide
  · exact fun _ => ⟨⟨[], rfl⟩, by decide⟩
  · decide
  · decide
  · decide
  · decide

theorem witness_SequencerTransitions :
    exec .txAdvance edgeState = .next (after (exec .txAdvance edgeState)) ∧
    edgeState.txState = .guard ∧ (after (exec .txAdvance edgeState)).txState = .idle := ⟨rfl, by decide, by decide⟩

theorem witness_StrayBitsAreReportedOnce :
    exec .decSample edgeState = .next (after (exec .decSample edgeState)) ∧
    edgeState.out.count (.strayBitsDiscarded 7) <
      (after (exec .decSample edgeState)).out.count (.strayBitsDiscarded 7) := ⟨rfl, by decide⟩

/-- The clauses about a gap and a flush that do report. -/
theorem witness_StrayBits_gap_and_flush :
    Inv { edgeState with q := [] } ∧ edgeState.currentBitCount ≠ 0 ∧ edgeState.halted = false ∧
    (∃ v ∈ edgeState.q.head?, 2000 < 10 * v.toNat) ∧
    21800 < (tdiff 21801 edgeState.lastFallingEdgeTick).toNat :=
  ⟨{ witness_invariant with queueBounded := rfl }, by decide, rfl, ⟨240, rfl, by decide⟩, by decide⟩

theorem witness_DebounceDropsCloseEdges : (filter 3000 3000 []).halted = false ∧
    (tdiff 3099 (filter 3000 3000 []).lastInterruptTick).toNat < 100 ∧
    100 ≤ (tdiff 3100 (filter 3000 3000 []).lastInterruptTick).toNat := by decide

theorem witness_AcceptedRise_full_queue : edgeState.halted = false ∧ edgeState.q.length = 200 ∧
    100 ≤ (tdiff 100 edgeState.lastInterruptTick).toNat := ⟨rfl, List.length_replicate, by decide⟩

theorem witness_QueuePushEvictsOldest :
    (List.replicate 200 (7 : U8)).length = 200 ∧ (List.replicate 199 (7 : U8)).length ≠ 200 ∧
    exec (.edgeRise 100) edgeState = .next (after (exec (.edgeRise 100) edgeState)) := 
  ⟨List.length_replicate, by rw [List.length_replicate]; decide, rfl⟩

theorem witness_IdleTest : (filter 0 (BitVec.ofNat 32 (2 ^ 32 + 5)) []).lastFallingEdgeTick = 5 ∧
    State.reset.lastFallingEdgeTick = (filter 9 0 [1]).lastFallingEdgeTick := by decide

theorem witness_GapDiscardsBitsInProgress : (decoder 0b10100000 3 true [201]).q = 201 :: [] ∧
    2000 < 10 * (201 : U8).toNat ∧ (decoder 0b10100000 3 true [201]).halted = false := by decide

theorem witness_DataSampleAccumulates : (decoder 0b10100100 7 true [200]).currentBitCount ≤ 7 ∧
    (decoder 0b10100100 7 true [200]).q = 200 :: [] ∧ 10 * (200 : U8).toNat ≤ 2000 ∧
    (true = decide (900 < 10 * (200 : U8).toNat)) ∧ (false = decide (900 < 10 * (90 : U8).toNat)) := by decide

theorem witness_EightDataSamplesMakeAByte : [200, 90, 91, 0, 120, 60, 60, 120].length = 8 ∧
    (∀ v ∈ ([200, 90, 91, 0, 120, 60, 60, 120] : List U8), 10 * v.toNat ≤ 2000) ∧
    (decoder 0xFF 0 false [200, 90, 91, 0, 120, 60, 60, 120, 240]).currentBitCount = 0 := by decide

theorem witness_FlushEmitsTheTerminator : (decoder 0 7 true []).q = [] ∧
    (decoder 0 7 true []).partialFrame = true ∧ (decoder 0 0 true []).partialFrame = true ∧
    21800 < (tdiff 21801 (decoder 0 7 true []).lastFallingEdgeTick).toNat := by decide

theorem witness_DecoderStepsOnlyWhenEnabled : (decoder 0 0 true [60]).q ≠ [] ∧
    State.reset.q = [] ∧ State.reset.partialFrame = false ∧
    (tdiff 21800 (decoder 0 0 true []).lastFallingEdgeTick).toNat ≤ 21800 ∧
    decSampleEnabled (decoder 0 0 true [60]) = true ∧ decFlushEnabled 21801 (decoder 0 0 true []) = true := by
  decide

/-- A schedule of a frame: the decoder's two operations, a `SEND` and a
microsecond between the edges, with each flush offered at the last tick at which the bus is not idle. -/
def schedule (edges : List Instr) : List Instr :=
  [Instr.decSample, .decFlush 21800] ++ edges.take 4 ++ [.decSample, .decSample, .decFlush 24900, .send [] 7,
    .txAdvance, .sync] ++ edges.drop 4

theorem witness_FrameDecodesUnderEverySchedule :
    let edges := (busEdges (encodeBytes [0xA5]) 100).map Instr.onEdge
    100 ≤ (tdiff 100 State.reset.lastInterruptTick).toNat ∧
    (schedule edges).filter isFilterOp = edges ∧
    (∀ i ∈ schedule edges, endsBlock i = false) ∧ (∀ i ∈ schedule edges, isClassRow i = false) ∧
    noFlushFires (schedule edges) State.reset = true ∧
    State.reset.currentBitCount = 0 ∧ State.reset.partialFrame = false := by decide

theorem witness_HaltedBlockStaysHalted : { State.reset with halted := true }.halted = true ∧
    (∀ i ∈ [Instr.txAdvance, .hwFail, .send [] 0], i ≠ .reset) := by decide

theorem witness_PathsDoNotInterfere : sameReceive (sending .playing [0xA5] 3 .high) State.reset ∧
    sameTransmit (decoder 3 2 true [7]) State.reset := by
  simp [sameReceive, sameTransmit, sending, decoder]

theorem witness_FirstOperationsAfterReset : (99 : Tick).toNat < 100 ∧ 100 ≤ (100 : Tick).toNat ∧
    parseHex "A5".toList = some [0xA5] ∧ (21800 : Tick).toNat ≤ 21800 ∧ 21800 < (21801 : Tick).toNat := by decide

theorem witness_QuiescenceIsReached : Inv edgeState ∧ edgeState.halted = false ∧ edgeState.inbox = [] ∧
    isIdle 21801 edgeState = true := ⟨witness_invariant, by decide, by decide, by decide⟩

theorem witness_AcceptedFallIsRecorded : (filter 3000 3000 []).halted = false ∧
    100 ≤ (tdiff 3100 (filter 3000 3000 []).lastInterruptTick).toNat := by decide

theorem witness_BurstKeepsTheLastSamples : (List.replicate 200 (7 : U8)).length ≤ 200 :=
  List.length_replicate.le

theorem witness_IdleTestAliases : State.reset.lastFallingEdgeTick = BitVec.ofNat 32 (2 ^ 32) ∧
    ¬ 21800 < (2 ^ 32 + 21800) % 2 ^ 32 ∧ 21800 < (2 ^ 32 + 21801) % 2 ^ 32 := by decide

theorem witness_DecSampleIsItsClassCase : (decoder 0 0 true [200, 201]).q = 200 :: [201] ∧
    (decoder 0 0 true [200, 201]).halted = false := by decide

theorem witness_StalledDecoderKeepsLastBytes : 1 ≤ (List.replicate 26 (0xA5 : U8)).length ∧
    100 ≤ (tdiff 100 State.reset.lastInterruptTick).toNat ∧ State.reset.halted = false ∧
    State.reset.q = [] ∧ State.reset.currentByte = 0 ∧ State.reset.partialFrame = false := by decide

theorem witness_OkExactlyWhenTheSequencerReturns : Inv edgeState ∧ Instr.txAdvance ≠ .reset ∧
    exec .txAdvance edgeState = .next (after (exec .txAdvance edgeState)) := ⟨witness_invariant, nofun, rfl⟩

/-- A step from an invariant state, the decoder's eighth bit lined up. -/
theorem witness_StepKeepsTheInvariant : Inv edgeState ∧ edgeState.inbox = [] ∧
    step edgeState = .next edgeState ∧
    step (edgeState.withFetchWord 8 200) = exec (.sOne 200) edgeState := ⟨witness_invariant, rfl, rfl, rfl⟩

/-- For EachFieldHasOneWriter and OutputIsAppendOnly: an operation of each agent that answers. -/
theorem witness_EachFieldHasOneWriter :
    isFilterOp .txAdvance = false ∧ isDecoderOp .txAdvance = false ∧ isTransmitOp .decSample = false ∧
    exec .decSample edgeState = .next (after (exec .decSample edgeState)) ∧
    (after (exec .decSample edgeState)).out = edgeState.out ++ [.strayBitsDiscarded 7] :=
  ⟨rfl, rfl, rfl, rfl, rfl⟩

end Sys2Proof.Tests
end

/-! ## Quantisation and dequantisation (00_scope.md R6 and R7) -/

namespace Sys2Proof.Machine

/-- The cap at `SAMPLE_MAX` is what makes the 8-bit sample hold the quotient without wrapping. -/
theorem toNat_quant (d : Nat) : (quant d).toNat = min 255 (d / 10) := by
  have fits : min 255 (d / 10) < 2 ^ 8 := by omega
  rw [quant, params_sampleMax, params_qDiv, BitVec.toNat_ofNat, Nat.mod_eq_of_lt fits]

theorem raw_eq (s : U8) : raw s = s.toNat * 10 := by rw [raw, params_qDiv]

theorem raw_le (s : U8) : raw s ≤ 2550 := by
  have bound : s.toNat < 2 ^ 8 := s.isLt
  rw [raw_eq]
  omega

theorem raw_mod_ten (s : U8) : raw s % 10 = 0 := by
  rw [raw_eq, Nat.mul_mod_left]

/-- What survives quantisation: the duration rounded down to a multiple of 10, capped at 2550. -/
theorem raw_quant (d : Nat) : raw (quant d) = min 2550 (d / 10 * 10) := by
  rw [raw_eq, toNat_quant, ← Nat.mul_min_mul_right]

theorem raw_quant_le (d : Nat) : raw (quant d) ≤ d := by
  rw [raw_quant]
  exact (Nat.min_le_right ..).trans (Nat.div_mul_le_self d 10)

/-- Every value of `raw` is a multiple of 10 up to 2550, so equality makes `d` one; such a `d` passes
the rounding and the cap unchanged. -/
theorem raw_quant_eq_iff (d : Nat) : raw (quant d) = d ↔ d % 10 = 0 ∧ d ≤ 2550 := by
  constructor
  · intro exact_value
    have multiple := raw_mod_ten (quant d)
    have bounded := raw_le (quant d)
    rw [exact_value] at multiple bounded
    exact ⟨multiple, bounded⟩
  · rintro ⟨multiple, bounded⟩
    have rounds_to_itself : d / 10 * 10 = d := Nat.div_mul_cancel (Nat.dvd_of_mod_eq_zero multiple)
    rw [raw_quant, rounds_to_itself, Nat.min_eq_right bounded]

/-- Settles O7: the range of `raw` on samples, then `raw ∘ quant` as rounding down under a cap. -/
theorem dequantisedValueNeverExceedsDuration :
    Obligations.DequantisedValueNeverExceedsDuration := by
  unfold Obligations.DequantisedValueNeverExceedsDuration
  constructor
  · intro s
    have fits : raw s < 2 ^ 12 := (raw_le s).trans_lt (by decide)
    exact ⟨raw_eq s, raw_le s, raw_mod_ten s, fits⟩
  · intro d
    exact ⟨raw_quant_le d, raw_quant_eq_iff d⟩

end Sys2Proof.Machine

/-! ## The sample queue (20_memory.md R31): `QPush`, and what each operation does to the queue -/

namespace Sys2Proof.Machine

theorem qPush_of_full {q : List U8} (h : q.length = 200) (v : U8) : qPush q v = q.tail ++ [v] :=
  congrArg (· ++ [v]) (if_pos h)

theorem qPush_of_not_full {q : List U8} (h : q.length ≠ 200) (v : U8) : qPush q v = q ++ [v] :=
  congrArg (· ++ [v]) (if_neg h)

theorem length_qPush_le {q : List U8} (h : q.length ≤ 200) (v : U8) : (qPush q v).length ≤ 200 :=
  (queueWf_iff _).mp (queueWf_qPush ((queueWf_iff q).mpr h) v)

@[simp] theorem getLast?_qPush (q : List U8) (v : U8) : (qPush q v).getLast? = some v :=
  List.getLast?_concat

@[simp] theorem appendSymbol_q (x : Symbol) (s : State) : (appendSymbol x s).q = s.q := rfl

@[simp] theorem fallCase_q (t : Tick) (s : State) : (fallCase t s).q = s.q := rfl

@[simp] theorem riseCase_q (t : Tick) (s : State) :
    (riseCase t s).q = qPush s.q (quant (tdiff t s.lastFallingEdgeTick).toNat) := rfl

@[simp] theorem sendCommand_q (str : List Char) (now : Tick) (s : State) :
    (sendCommand str now s).q = s.q := by
  obtain ⟨-, h⟩ | ⟨_, -, -, h⟩ | ⟨_, -, -, -, h⟩ := sendCommand_cases str now s <;> simp [h]

@[simp] theorem advanceMicrosecond_q (s : State) : (advanceMicrosecond s).q = s.q := by
  obtain ⟨-, h⟩ | ⟨-, -, h⟩ | ⟨-, -, -, h⟩ | ⟨-, -, h⟩ | ⟨-, -, h⟩ | ⟨-, -, h⟩ :=
    advanceMicrosecond_cases s <;> simp [h]

@[simp] theorem gapCase_q (s : State) : (gapCase s).q = s.q := by
  obtain ⟨-, -, h⟩ | ⟨-, h⟩ := gapCase_cases s <;> simp [h]

@[simp] theorem dataCase_q (v : Bool) (s : State) : (dataCase v s).q = s.q := by
  obtain ⟨-, h⟩ | ⟨-, h⟩ := dataCase_cases v s <;> simp [h]

@[simp] theorem processSample_q (v : U8) (s : State) : (processSample v s).q = s.q := by
  obtain ⟨-, h⟩ | ⟨-, h⟩ | ⟨-, h⟩ := processSample_cases v s <;> simp [h]

/-- On an empty queue `DEC_SAMPLE` has no step, and the tail of the empty queue is empty. -/
@[simp] theorem decodeNext_q (s : State) : (decodeNext s).q = s.q.tail := by
  obtain ⟨hq, h⟩ | ⟨v, rest, hq, h⟩ := decodeNext_cases s <;> simp [h, hq]

@[simp] theorem flushFrame_q (s : State) : (flushFrame s).q = s.q := by
  obtain ⟨-, h⟩ | ⟨-, h⟩ := flushFrame_cases s <;> simp [h]

/-- The debounce itself never touches the queue: only the case of an accepted event can. -/
theorem debounced_keeps_q {case : State → State} (hcase : ∀ s, (case s).q = s.q) (t : Tick)
    (s : State) : (debounced t case s).q = s.q := by
  obtain ⟨-, h⟩ | ⟨-, h⟩ := debounced_cases t case s <;> simp [h, hcase]

theorem whileRunning_keeps_q {s t : State} {op : State → State} (h : whileRunning s op = .next t)
    (hop : ∀ s, (op s).q = s.q) : t.q = s.q := by
  obtain ⟨-, rfl⟩ | ⟨-, rfl⟩ := whileRunning_cases h
  · rfl
  · exact hop s

/-- A rising edge is dropped with the queue as it was, or passes the debounce in a running block and
pushes (41_edge_filter.md R86, R89). -/
theorem rise_keeps_or_pushes {tick : Tick} {s t : State}
    (h : whileRunning s (debounced tick (riseCase tick)) = .next t) :
    t.q = s.q ∨
      (100 ≤ (tdiff tick s.lastInterruptTick).toNat ∧ s.halted = false ∧ ∃ v, t.q = qPush s.q v) := by
  obtain ⟨-, rfl⟩ | ⟨running, rfl⟩ := whileRunning_cases h
  · exact .inl rfl
  · obtain ⟨-, dropped⟩ | ⟨accepted, performed⟩ := debounced_cases tick (riseCase tick) s
    · exact .inl (by rw [dropped, ret_q])
    · have late : ¬ (tdiff tick s.lastInterruptTick).toNat < 100 := by
        rw [← bounces_iff, accepted]
        exact Bool.false_ne_true
      exact .inr ⟨Nat.le_of_not_lt late, running, _, by rw [performed, riseCase_q, acceptEdge_q]⟩

/-- All that one operation can do to the queue: keep it, pop its head, empty it, or push. -/
theorem exec_queue_cases (i : Instr) {s t : State} (h : exec i s = .next t) :
    t.q = s.q ∨ (i = .decSample ∧ t.q = s.q.tail) ∨ (i = .reset ∧ t.q = []) ∨
    ((∃ tick, (i = .edgeRise tick ∨ i = .onEdge ⟨.high, tick⟩) ∧
        100 ≤ (tdiff tick s.lastInterruptTick).toNat) ∧
      s.halted = false ∧ ∃ v, t.q = qPush s.q v) := by
  cases i with
  | sync => exact .inl (whileRunning_keeps_q h (appendSymbol_q .sync))
  | bit1 => exact .inl (whileRunning_keeps_q h (appendSymbol_q .bit1))
  | bit0 => exact .inl (whileRunning_keeps_q h (appendSymbol_q .bit0))
  | sGap => exact .inl (whileRunning_keeps_q h gapCase_q)
  | sOne => exact .inl (whileRunning_keeps_q h (dataCase_q true))
  | sZero => exact .inl (whileRunning_keeps_q h (dataCase_q false))
  | edgeFall tick =>
    exact .inl (whileRunning_keeps_q h (debounced_keeps_q (fallCase_q tick) tick))
  | edgeRise tick =>
    obtain kept | ⟨late, running, pushed⟩ := rise_keeps_or_pushes h
    · exact .inl kept
    · exact .inr (.inr (.inr ⟨⟨tick, .inl rfl, late⟩, running, pushed⟩))
  | encode =>
    rw [exec_encode] at h
    exact .inl (whileRunning_keeps_q h fun _ => rfl)
  | send str now =>
    rw [exec_send] at h
    exact .inl (whileRunning_keeps_q h (sendCommand_q str now))
  | txAdvance =>
    rw [exec_txAdvance] at h
    cases h
    cases s.halted <;> simp
  | onEdge event =>
    obtain ⟨level, tick⟩ := event
    cases level with
    | low => exact .inl (whileRunning_keeps_q h (debounced_keeps_q (fallCase_q tick) tick))
    | high =>
      obtain kept | ⟨late, running, pushed⟩ := rise_keeps_or_pushes h
      · exact .inl kept
      · exact .inr (.inr (.inr ⟨⟨tick, .inr rfl, late⟩, running, pushed⟩))
  | isIdle =>
    rw [exec_isIdle] at h
    exact .inl (whileRunning_keeps_q h fun _ => rfl)
  | decSample =>
    obtain ⟨-, rfl⟩ | ⟨-, rfl⟩ := whileRunning_cases h
    · exact .inl rfl
    · exact .inr (.inl ⟨rfl, decodeNext_q s⟩)
  | decFlush now =>
    rw [exec_decFlush] at h
    refine .inl (whileRunning_keeps_q h fun s => ?_)
    cases decFlushEnabled now s <;> simp
  | reset => cases h; exact .inr (.inr (.inl ⟨rfl, rfl⟩))
  | hwFail =>
    rw [exec_hwFail] at h
    exact .inl (whileRunning_keeps_q h fun _ => rfl)

/-- Settles O30: the four facts of `QPush` on lists, then the one inversion of an operation on the
queue. -/
theorem queuePushEvictsOldest : Obligations.QueuePushEvictsOldest := by
  unfold Obligations.QueuePushEvictsOldest
  constructor
  · intro q v
    exact ⟨fun full => qPush_of_full full v, fun notFull => qPush_of_not_full notFull v,
      fun bounded => length_qPush_le bounded v, getLast?_qPush q v⟩
  · intro i s t h
    exact exec_queue_cases i h

end Sys2Proof.Machine

/-! ## The Pulse Encoder (40_encoder.md R65): the waveform `ENCODE` hands back -/

namespace Sys2Proof.Machine

theorem byteBits_eq_map (b : U8) : byteBits b = [7, 6, 5, 4, 3, 2, 1, 0].map b.getLsbD := rfl

/-- A data bit on the output pin: the mark tells the bit, the space is the same for both. -/
theorem symbolSegments_bitSymbol (v : Bool) :
    symbolSegments (bitSymbol v) =
      if v = true then [⟨.high, 1200⟩, ⟨.low, 600⟩] else [⟨.high, 600⟩, ⟨.low, 600⟩] := by
  cases v with
  | true => rfl
  | false => rfl

/-- A byte on the output pin, bit 7 first. -/
theorem byteSegments_eq (b : U8) :
    ((byteBits b).flatMap fun v => symbolSegments (bitSymbol v)) =
      [7, 6, 5, 4, 3, 2, 1, 0].flatMap fun i =>
        if b.getLsbD i = true then [⟨.high, 1200⟩, ⟨.low, 600⟩] else [⟨.high, 600⟩, ⟨.low, 600⟩] := by
  simp only [byteBits_eq_map, List.flatMap_map, symbolSegments_bitSymbol]

/-- The frame is the empty command's frame, the sync alone, with the bytes appended. -/
theorem encodeBytes_eq (bytes : List U8) :
    encodeBytes bytes = [⟨.high, 2400⟩, ⟨.low, 600⟩] ++
      bytes.flatMap fun b => [7, 6, 5, 4, 3, 2, 1, 0].flatMap fun i =>
        if b.getLsbD i = true then [⟨.high, 1200⟩, ⟨.low, 600⟩] else [⟨.high, 600⟩, ⟨.low, 600⟩] := by
  have sync : encodeBytes [] = [⟨.high, 2400⟩, ⟨.low, 600⟩] := encodeBytes_nil
  have appended := encodeBytes_append [] bytes
  simpa only [List.nil_append, sync, byteSegments_eq] using appended

/-- In a running block `ENCODE` writes the model's own `result` and `building`, nothing else. -/
theorem exec_encode_running {s : State} (running : s.halted = false) (bytes : List U8) :
    exec (.encode bytes) s =
      .next { s with result := .waveform (encodeBytes bytes), building := encodeBytes bytes } := by
  rw [exec_encode, whileRunning_running running]
  rfl

/-- Settles O12: the state `ENCODE` answers with, then the waveform in it written out. -/
theorem encodeReturnsTheFrame : Obligations.EncodeReturnsTheFrame := by
  unfold Obligations.EncodeReturnsTheFrame
  intro bytes s running
  exact ⟨encodeBytes bytes, encodeBytes bytes, exec_encode_running running bytes, encodeBytes_eq bytes⟩

end Sys2Proof.Machine

/-! ## The Edge Event Filter (41_edge_filter.md R86 to R89): dropped, recorded or measured -/

namespace Sys2Proof.Machine

/-- Of the debounce in numbers, the side that drops (R86). -/
theorem debounced_of_close {t : Tick} {s : State}
    (close : (tdiff t s.lastInterruptTick).toNat < 100) (case : State → State) :
    debounced t case s = s.ret (.sample none) :=
  if_pos ((bounces_iff t s).mpr close)

/-- Of the debounce in numbers, the side that accepts (R86, R87). -/
theorem debounced_of_late {t : Tick} {s : State}
    (late : 100 ≤ (tdiff t s.lastInterruptTick).toNat) (case : State → State) :
    debounced t case s = case (s.acceptEdge t) :=
  if_neg fun bouncing => Nat.not_lt_of_le late ((bounces_iff t s).mp bouncing)

/-- A dropped event never reaches its case, so the answer is the same for every `case`. -/
theorem whileRunning_debounced_of_close {t : Tick} {s : State} (running : s.halted = false)
    (close : (tdiff t s.lastInterruptTick).toNat < 100) (case : State → State) :
    whileRunning s (debounced t case) = .next { s with result := .sample none } := by
  rw [whileRunning_running running, debounced_of_close close]
  rfl

theorem whileRunning_debounced_of_late {t : Tick} {s : State} (running : s.halted = false)
    (late : 100 ≤ (tdiff t s.lastInterruptTick).toNat) (case : State → State) :
    whileRunning s (debounced t case) = .next (case (s.acceptEdge t)) := by
  rw [whileRunning_running running, debounced_of_late late]

@[simp] theorem fallCase_lastInterruptTick (t : Tick) (s : State) :
    (fallCase t s).lastInterruptTick = s.lastInterruptTick := rfl

@[simp] theorem riseCase_lastInterruptTick (t : Tick) (s : State) :
    (riseCase t s).lastInterruptTick = s.lastInterruptTick := rfl

@[simp] theorem edgeCase_lastInterruptTick (e : EdgeEvent) (s : State) :
    (edgeCase e s).lastInterruptTick = s.lastInterruptTick := by
  obtain ⟨level, t⟩ := e
  cases level with
  | low => exact fallCase_lastInterruptTick t s
  | high => exact riseCase_lastInterruptTick t s

/-- Whatever its case does, an accepted event becomes the debounce reference, if the case itself
leaves that register alone. -/
theorem accepted_becomes_reference {t : Tick} {s : State} (running : s.halted = false)
    (late : 100 ≤ (tdiff t s.lastInterruptTick).toNat) {case : State → State}
    (keeps : ∀ s, (case s).lastInterruptTick = s.lastInterruptTick) :
    ∃ u, whileRunning s (debounced t case) = .next u ∧ u.lastInterruptTick = t :=
  ⟨case (s.acceptEdge t), whileRunning_debounced_of_late running late case,
    by rw [keeps, acceptEdge_lastInterruptTick]⟩

/-- Settles O27: the two sides of the debounce, each for any case, at the three edge operations. -/
theorem debounceDropsCloseEdges : Obligations.DebounceDropsCloseEdges := by
  unfold Obligations.DebounceDropsCloseEdges
  intro e s running
  simp only [exec_onEdge, exec_edgeFall, exec_edgeRise]
  constructor
  · intro close
    have dropped := whileRunning_debounced_of_close running close
    exact ⟨dropped (edgeCase e), dropped (fallCase e.timestamp), dropped (riseCase e.timestamp)⟩
  · intro late
    exact ⟨accepted_becomes_reference running late (edgeCase_lastInterruptTick e),
      accepted_becomes_reference running late (fallCase_lastInterruptTick e.timestamp),
      accepted_becomes_reference running late (riseCase_lastInterruptTick e.timestamp)⟩

/-! `ON_EDGE` is the edge kind of its level (30_encoding.md R53). -/

theorem exec_onEdge_low (t : Tick) (s : State) :
    exec (.onEdge ⟨.low, t⟩) s = exec (.edgeFall t) s := rfl

theorem exec_onEdge_high (t : Tick) (s : State) :
    exec (.onEdge ⟨.high, t⟩) s = exec (.edgeRise t) s := rfl

theorem exec_edgeFall_of_late {t : Tick} {s : State} (running : s.halted = false)
    (late : 100 ≤ (tdiff t s.lastInterruptTick).toNat) :
    exec (.edgeFall t) s =
      .next { s with lastInterruptTick := t, lastFallingEdgeTick := t, result := .sample none } := by
  rw [exec_edgeFall, whileRunning_debounced_of_late running late]
  rfl

/-- The LOW period is measured from the falling edge of the state before the event: accepting it
writes the other register. -/
theorem exec_edgeRise_of_late {t : Tick} {s : State} (running : s.halted = false)
    (late : 100 ≤ (tdiff t s.lastInterruptTick).toNat) :
    exec (.edgeRise t) s =
      .next { s with lastInterruptTick := t,
                     q := qPush s.q (quant (tdiff t s.lastFallingEdgeTick).toNat),
                     result := .sample (some (quant (tdiff t s.lastFallingEdgeTick).toNat)) } := by
  rw [exec_edgeRise, whileRunning_debounced_of_late running late]
  rfl

theorem qPush_eq (q : List U8) (v : U8) :
    qPush q v = (if q.length = 200 then q.tail else q) ++ [v] := by
  rw [qPush, params_fifoCap]

/-- Settles O28: what `EDGE_FALL` answers, and `ON_EDGE` with level LOW is `EDGE_FALL`. -/
theorem acceptedFallIsRecorded : Obligations.AcceptedFallIsRecorded := by
  unfold Obligations.AcceptedFallIsRecorded
  intro t s running late
  rw [exec_onEdge_low, exec_edgeFall_of_late running late]
  exact ⟨rfl, rfl⟩

/-- Settles O29: the sample is the quantised LOW period, and `ON_EDGE` with level HIGH is
`EDGE_RISE`. -/
theorem acceptedRiseIsMeasured : Obligations.AcceptedRiseIsMeasured := by
  unfold Obligations.AcceptedRiseIsMeasured
  intro t s running late
  refine ⟨quant (tdiff t s.lastFallingEdgeTick).toNat, toNat_quant _, ?_⟩
  rw [← qPush_eq]
  rintro i (rfl | rfl)
  · rw [exec_onEdge_high, exec_edgeRise_of_late running late]
  · exact exec_edgeRise_of_late running late

end Sys2Proof.Machine

/-! ## The Bus Idle Detector (42_idle_detector.md R100, R101) -/

namespace Sys2Proof.Machine

/-- The difference modulo 2^32 recovers the offset, also where the sum wraps. -/
theorem tdiff_add_left (ref offset : Tick) : tdiff (ref + offset) ref = offset := by
  rw [tdiff, add_sub_cancel_left]

/-- At an offset from the reference tick the answer is the offset's alone, whatever the reference. -/
theorem isIdle_add_iff (offset : Tick) (s : State) :
    isIdle (s.lastFallingEdgeTick + offset) s = true ↔ 21800 < offset.toNat := by
  rw [isIdle_iff, tdiff_add_left]

theorem isIdle_congr {s t : State} (same : s.lastFallingEdgeTick = t.lastFallingEdgeTick)
    (now : Tick) : isIdle now s = isIdle now t := by
  rw [Bool.eq_iff_iff, isIdle_iff, isIdle_iff, same]

/-- In a running block `IS_IDLE` writes the model's own `result`, nothing else. -/
theorem exec_isIdle_running {s : State} (running : s.halted = false) (now : Tick) :
    exec (.isIdle now) s = .next { s with result := .idle (isIdle now s) } := by
  rw [exec_isIdle, whileRunning_running running]
  rfl

/-- Settles O32: the state `IS_IDLE` answers with, the test at the three offsets, and the one field
the test reads. -/
theorem idleTestIsStrict : Obligations.IdleTestIsStrict := by
  unfold Obligations.IdleTestIsStrict
  refine ⟨fun now s running => ?_, fun s => ?_, fun now s t same => isIdle_congr same now⟩
  · exact ⟨isIdle now s, exec_isIdle_running running now, isIdle_iff now s⟩
  · refine ⟨?at_21799, ?at_21800, ?at_21801⟩
    case at_21799 => rw [← Bool.not_eq_true, isIdle_add_iff]; decide
    case at_21800 => rw [← Bool.not_eq_true, isIdle_add_iff]; decide
    case at_21801 => rw [isIdle_add_iff]; decide

end Sys2Proof.Machine

/-! ## The conditions (60_exceptions.md R132): the answer of a busy gate -/

namespace Sys2Proof.Machine

theorem isIdle_eq_false_iff (now : Tick) (s : State) :
    isIdle now s = false ↔ (tdiff now s.lastFallingEdgeTick).toNat ≤ 21800 := by
  rw [← Bool.not_eq_true, isIdle_iff, Nat.not_lt]

/-- Of what a command can do, the one case that a parsing string at a closed gate leaves. -/
theorem sendCommand_of_busy {str : List Char} {now : Tick} {s : State} {bytes : List U8}
    (parses : parseHex str = some bytes) (busy : txBusy s = true ∨ isIdle now s = false) :
    sendCommand str now s = s.emit (.sendResult .busBusy) := by
  obtain ⟨malformed, -⟩ | ⟨_, -, -, answer⟩ | ⟨_, -, free, idle, -⟩ := sendCommand_cases str now s
  · rw [parses] at malformed
    contradiction
  · exact answer
  · simp [free, idle] at busy

/-- The answer is one event and the model's own `result`: nothing else of the block is written. -/
theorem exec_send_of_busy {str : List Char} {now : Tick} {s : State} {bytes : List U8}
    (running : s.halted = false) (parses : parseHex str = some bytes)
    (busy : txBusy s = true ∨ isIdle now s = false) :
    exec (.send str now) s =
      .next { s with out := s.out ++ [.sendResult .busBusy], result := .done } := by
  rw [exec_send, whileRunning_running running, sendCommand_of_busy parses busy]
  rfl

/-! The numeric codes of the two rejections (30_encoding.md R58). -/

@[simp] theorem sendOutcomeCode_malformedCommand : sendOutcomeCode .malformedCommand = 1 := rfl
@[simp] theorem sendOutcomeCode_busBusy : sendOutcomeCode .busBusy = 2 := rfl

/-- Settles O19: the busy gate in numbers, then the state `SEND` answers with; the two rejections have
the codes 2 and 1. -/
theorem busySendChangesNothing : Obligations.BusySendChangesNothing := by
  unfold Obligations.BusySendChangesNothing
  constructor
  · intro str now s bytes running parses closed
    rw [← txBusy_iff, ← isIdle_eq_false_iff] at closed
    exact ⟨.done, exec_send_of_busy running parses closed⟩
  · rw [sendOutcomeCode_busBusy, sendOutcomeCode_malformedCommand]
    decide

end Sys2Proof.Machine

/-! ## Sample classes (30_encoding.md R51): by `raw`, by sample and by duration of the LOW period -/

namespace Sys2Proof.Machine

theorem classify_gap_iff (v : U8) : classify v = .gap ↔ 201 ≤ v.toNat := by
  obtain ⟨range, h⟩ | ⟨range, above, h⟩ | ⟨range, h⟩ := classify_cases v <;> simp [h] <;> omega

theorem classify_one_iff (v : U8) : classify v = .one ↔ 91 ≤ v.toNat ∧ v.toNat ≤ 200 := by
  obtain ⟨range, h⟩ | ⟨range, above, h⟩ | ⟨range, h⟩ := classify_cases v <;> simp [h] <;> omega

theorem classify_zero_iff (v : U8) : classify v = .zero ↔ v.toNat ≤ 90 := by
  obtain ⟨range, h⟩ | ⟨range, above, h⟩ | ⟨range, h⟩ := classify_cases v <;> simp [h] <;> omega

/-- Settles O8: the sample column is the three lemmas above; the other two columns are that one
multiplied by 10, and pulled back along `quant`. -/
theorem sampleClassesPartition : Obligations.SampleClassesPartition := by
  unfold Obligations.SampleClassesPartition
  simp only [classify_gap_iff, classify_one_iff, classify_zero_iff, toNat_quant]
  constructor
  · intro s
    refine ⟨?_, trivial, ?_, trivial, ?_, trivial⟩ <;> omega
  · intro d
    refine ⟨?_, ?_, ?_⟩ <;> omega

end Sys2Proof.Machine

/-! ## Decoding and encoding (30_encoding.md R47, R51, R52, R53, R62) are inverse to each other -/

namespace Sys2Proof

open Machine

/-! Samples: the decoder's thresholds against the ranges of well-formed operations. -/

theorem decodeSample8_of_gap {v : U8} (h : classify v = .gap) : decodeSample8 v = .sGap v := by
  rw [decodeSample8, h]

theorem decodeSample8_of_one {v : U8} (h : classify v = .one) : decodeSample8 v = .sOne v := by
  rw [decodeSample8, h]

theorem decodeSample8_of_zero {v : U8} (h : classify v = .zero) : decodeSample8 v = .sZero v := by
  rw [decodeSample8, h]

theorem sGap_wellFormed_iff (v : U8) : (Instr.sGap v).wellFormed = true ↔ classify v = .gap := by
  rw [classify_gap_iff, Instr.wellFormed, decide_eq_true_iff]

theorem sOne_wellFormed_iff (v : U8) : (Instr.sOne v).wellFormed = true ↔ classify v = .one := by
  rw [classify_one_iff, Instr.wellFormed, Bool.and_eq_true, decide_eq_true_iff, decide_eq_true_iff]

theorem sZero_wellFormed_iff (v : U8) : (Instr.sZero v).wellFormed = true ↔ classify v = .zero := by
  rw [classify_zero_iff, Instr.wellFormed, decide_eq_true_iff]

/-- Every sample decodes to the row of its class, which is well formed and encodes to it. -/
theorem decodeSample8_exact (v : U8) :
    (decodeSample8 v).wellFormed = true ∧ encode (decodeSample8 v) = .sample8 v := by
  cases h : classify v with
  | gap => rw [decodeSample8_of_gap h, sGap_wellFormed_iff]; exact ⟨h, rfl⟩
  | one => rw [decodeSample8_of_one h, sOne_wellFormed_iff]; exact ⟨h, rfl⟩
  | zero => rw [decodeSample8_of_zero h, sZero_wellFormed_iff]; exact ⟨h, rfl⟩

/-! Edge events: a listing word is its level bit and its timestamp. -/

theorem edgeWord_timestamp (level : BitVec 1) (t : Tick) : (level ++ t).setWidth 32 = t :=
  BitVec.setWidth_append_eq_right

theorem edgeWord_level (level : BitVec 1) (t : Tick) :
    (level ++ t).getLsbD 32 = level.getLsbD 0 := by
  rw [BitVec.getLsbD_append]
  rfl

theorem decodeEdge_fall (t : Tick) : decodeEdge (0#1 ++ t) = .edgeFall t := by
  rw [decodeEdge, edgeWord_level, edgeWord_timestamp]
  rfl

theorem decodeEdge_rise (t : Tick) : decodeEdge (1#1 ++ t) = .edgeRise t := by
  rw [decodeEdge, edgeWord_level, edgeWord_timestamp]
  rfl

/-- A listing word is put together again from bit 32 and bits 31..0. -/
theorem edgeWord_reassembled (w : BitVec 33) :
    BitVec.ofBool (w.getLsbD 32) ++ w.setWidth 32 = w := by
  refine BitVec.eq_of_getLsbD_eq fun k hk => ?_
  rw [BitVec.getLsbD_append, BitVec.getLsbD_setWidth, BitVec.getLsbD_ofBool]
  rcases Nat.lt_succ_iff_lt_or_eq.mp hk with low | rfl
  · simp [low]
  · simp

theorem decodeEdge_exact (w : BitVec 33) :
    (decodeEdge w).wellFormed = true ∧ encode (decodeEdge w) = .edge w := by
  have whole := edgeWord_reassembled w
  unfold decodeEdge
  cases level : w.getLsbD 32 with
  | true => rw [level] at whole; exact ⟨rfl, congrArg Word.edge whole⟩
  | false => rw [level] at whole; exact ⟨rfl, congrArg Word.edge whole⟩

/-! Pin waveforms and named operations. -/

theorem decodeWire_exact {units : List Bool} {i : Instr} (h : decodeWire units = .ok i) :
    i.wellFormed = true ∧ encode i = .wire units := by
  unfold decodeWire at h
  split_ifs at h with sync bit1 bit0
  · cases h; exact ⟨rfl, by rw [sync]; rfl⟩
  · cases h; exact ⟨rfl, by rw [bit1]; rfl⟩
  · cases h; exact ⟨rfl, by rw [bit0]; rfl⟩

theorem mem_operationNames (name : String) : name ∈ operationNames ↔
    name = "ENCODE" ∨ name = "SEND" ∨ name = "TX_ADVANCE" ∨ name = "ON_EDGE" ∨ name = "IS_IDLE" ∨
      name = "DEC_SAMPLE" ∨ name = "DEC_FLUSH" ∨ name = "RESET" ∨ name = "HW_FAIL" := by
  simp only [operationNames, List.mem_cons, List.not_mem_nil, or_false]

/-- A name outside the table is refused whatever its operands: the match compares the name with the nine
names in turn (`delta` shows the comparisons), and none of them holds. -/
theorem decodeOp_of_unknown {name : String} (unknown : name ∉ operationNames) (args : OpArgs) :
    decodeOp name args = .error .unknownOperation := by
  have h := unknown
  simp only [mem_operationNames, not_or] at h
  obtain ⟨h₁, h₂, h₃, h₄, h₅, h₆, h₇, h₈, h₉⟩ := h
  delta decodeOp decodeOp.match_1
  rw [dif_neg h₁, dif_neg h₂, dif_neg h₃, dif_neg h₄, dif_neg h₅, dif_neg h₆, dif_neg h₇, dif_neg h₈,
    dif_neg h₉]
  exact if_neg unknown

/-- Each of the nine names takes operands of its row's shape alone, and is then what its operation
encodes to. -/
theorem decodeOp_exact {name : String} {args : OpArgs} {i : Instr} (h : decodeOp name args = .ok i) :
    i.wellFormed = true ∧ encode i = .op name args := by
  by_cases known : name ∈ operationNames
  · rw [mem_operationNames] at known
    rcases known with rfl | rfl | rfl | rfl | rfl | rfl | rfl | rfl | rfl
    all_goals cases args <;> cases h; exact ⟨rfl, rfl⟩
  · rw [decodeOp_of_unknown known] at h
    contradiction

/-- Settles O3, by cases on the operation: samples by their class, edge events by their level bit,
and the other rows by comparing constants. -/
theorem decodeInvertsEncode : Obligations.DecodeInvertsEncode := by
  unfold Obligations.DecodeInvertsEncode
  intro i wf
  cases i with
  | sGap v => exact congrArg Except.ok (decodeSample8_of_gap ((sGap_wellFormed_iff v).mp wf))
  | sOne v => exact congrArg Except.ok (decodeSample8_of_one ((sOne_wellFormed_iff v).mp wf))
  | sZero v => exact congrArg Except.ok (decodeSample8_of_zero ((sZero_wellFormed_iff v).mp wf))
  | edgeFall t => exact congrArg Except.ok (decodeEdge_fall t)
  | edgeRise t => exact congrArg Except.ok (decodeEdge_rise t)
  | sync | bit1 | bit0 => rfl
  | encode _ | send _ _ | txAdvance | onEdge _ | isIdle _ | decSample | decFlush _ | reset | hwFail =>
    rfl

/-- What decodes is well formed and encodes back to the word, carrier by carrier. -/
theorem decode_exact {w : Word} {i : Instr} (h : decode w = .ok i) :
    i.wellFormed = true ∧ encode i = w := by
  cases w with
  | wire units => exact decodeWire_exact h
  | sample8 v => cases h; exact decodeSample8_exact v
  | edge word => cases h; exact decodeEdge_exact word
  | op name args => exact decodeOp_exact h

/-- Settles O4: a word that encodes something decodes to it by O3, so it is not rejected; a word
that is not rejected encodes what it decodes to. -/
theorem decodeIsExact : Obligations.DecodeIsExact := by
  unfold Obligations.DecodeIsExact
  intro w
  refine ⟨fun i decodes => decode_exact decodes, ?_, ?_⟩
  · rintro ⟨e, rejected⟩ i wf rfl
    rw [decodeInvertsEncode i wf] at rejected
    contradiction
  · intro encodes_nothing
    cases outcome : decode w with
    | error e => exact ⟨e, rfl⟩
    | ok i =>
      obtain ⟨wf, back⟩ := decode_exact outcome
      exact absurd back (encodes_nothing i wf)

/-- Settles O2: each word is looked up in its carrier's table. -/
theorem listedWordsDecode : Obligations.ListedWordsDecode := by
  unfold Obligations.ListedWordsDecode
  exact ⟨rfl, rfl, rfl, rfl, rfl, rfl, rfl, rfl, rfl, rfl, rfl⟩

end Sys2Proof

/-! ## What one operation can write, agent by agent (10_state.md R24, 60_exceptions.md R145)

Every operation answers a next state; the lemmas of this part write that state as the one before with
the fields of the operation's own agent replaced. -/

namespace Sys2Proof.Machine

/-- Settles O43: every arm of `exec` answers `.next`. -/
theorem everyOperationAnswersNext : Obligations.EveryOperationAnswersNext := by
  unfold Obligations.EveryOperationAnswersNext
  intro i s
  cases i with
  | sync | bit1 | bit0 | encode _ => exact ⟨_, rfl⟩
  | sGap _ | sOne _ | sZero _ | decSample | decFlush _ => exact ⟨_, rfl⟩
  | edgeFall _ | edgeRise _ | onEdge _ | isIdle _ => exact ⟨_, rfl⟩
  | send _ _ | txAdvance | reset | hwFail => exact ⟨_, rfl⟩

/-! ### A halted block -/

theorem exec_txAdvance_of_halted {s : State} (halted : s.halted = true) :
    exec .txAdvance s = .next (s.freePin.ret .noStep) := by
  rw [exec_txAdvance, if_pos halted]

/-- Of the operations of a halted block only `RESET` and the passing microsecond do anything. -/
theorem exec_of_halted {i : Instr} {s : State} (halted : s.halted = true) (not_reset : i ≠ .reset)
    (not_advance : i ≠ .txAdvance) : exec i s = .next (s.ret .noStep) := by
  have gated (op : State → State) := whileRunning_halted halted op
  cases i with
  | reset => exact absurd rfl not_reset
  | txAdvance => exact absurd rfl not_advance
  | sync | bit1 | bit0 | sGap _ | sOne _ | sZero _ | decSample => exact gated _
  | edgeFall _ | edgeRise _ | onEdge _ => exact gated _
  | encode _ => rw [exec_encode, gated]
  | isIdle _ => rw [exec_isIdle, gated]
  | send _ _ => rw [exec_send, gated]
  | decFlush _ => rw [exec_decFlush, gated]
  | hwFail => rw [exec_hwFail, gated]

/-! ### One frame per agent -/

/-- The operations that write none of the block's eleven fields and emit nothing: the wire symbols,
`ENCODE` and `IS_IDLE`. -/
def isQuietOp : Instr → Bool
  | .sync => true
  | .bit1 => true
  | .bit0 => true
  | .encode _ => true
  | .isIdle _ => true
  | _ => false

theorem agent_cases (i : Instr) :
    isFilterOp i = true ∨ isDecoderOp i = true ∨ isTransmitOp i = true ∨ isQuietOp i = true ∨
      i = .hwFail ∨ i = .reset := by
  cases i <;> simp [isFilterOp, isDecoderOp, isTransmitOp, isQuietOp]

/-- `t` is `s` but for what the Edge Event Filter writes. -/
def FilterFrame (s t : State) : Prop :=
  ∃ lit lfe q r, t = { s with lastInterruptTick := lit, lastFallingEdgeTick := lfe, q := q, result := r }

/-- `t` is `s` but for what the Pulse Decoder writes; at most two events are emitted, all its own. -/
def DecoderFrame (s t : State) : Prop :=
  ∃ b n p q es r,
    t = { s with currentByte := b, currentBitCount := n, partialFrame := p, q := q,
                 out := s.out ++ es, result := r } ∧
    es.length ≤ 2 ∧ ∀ e ∈ es, isDecoderEvent e = true

/-- `t` is `s` but for what the transmit path writes (the draws of free values among it); at most one
event is emitted, a `SendResult`. -/
def TransmitFrame (s t : State) : Prop :=
  ∃ st w e l c es r,
    t = { s with txState := st, txWave := w, txElapsed := e, tx := l, freeCount := c,
                 out := s.out ++ es, result := r } ∧
    es.length ≤ 1 ∧ ∀ e ∈ es, isDecoderEvent e = false

/-- `t` is `s` but for the model's own `result` and `building`. -/
def QuietFrame (s t : State) : Prop := ∃ r b, t = { s with result := r, building := b }

/-- The halted half of a gated operation is the same for every agent. -/
theorem whileRunning_frame {F : State → State → Prop} {s : State} {op : State → State}
    (halted : F s (s.ret .noStep)) (performed : s.halted = false → F s (op s)) :
    ∃ t, whileRunning s op = .next t ∧ F s t := by
  cases h : s.halted with
  | true => exact ⟨_, whileRunning_halted h op, halted⟩
  | false => exact ⟨_, whileRunning_running h op, performed h⟩

theorem filterFrame_ret (s : State) (r : OpResult) : FilterFrame s (s.ret r) := ⟨_, _, _, r, rfl⟩

theorem filterFrame_debounced_fall (t : Tick) (s : State) :
    FilterFrame s (debounced t (fallCase t) s) := by
  obtain ⟨-, h⟩ | ⟨-, h⟩ := debounced_cases t (fallCase t) s
  · rw [h]; exact filterFrame_ret s _
  · rw [h]; exact ⟨t, t, s.q, _, rfl⟩

theorem filterFrame_debounced_rise (t : Tick) (s : State) :
    FilterFrame s (debounced t (riseCase t) s) := by
  obtain ⟨-, h⟩ | ⟨-, h⟩ := debounced_cases t (riseCase t) s
  · rw [h]; exact filterFrame_ret s _
  · rw [h]; exact ⟨t, s.lastFallingEdgeTick, _, _, rfl⟩

/-- `ON_EDGE` is the edge kind of its level, so the filter has two operations. -/
theorem filterOp_eq {i : Instr} (h : isFilterOp i = true) (s : State) :
    ∃ t, exec i s = exec (.edgeFall t) s ∨ exec i s = exec (.edgeRise t) s := by
  cases i with
  | edgeFall t => exact ⟨t, .inl rfl⟩
  | edgeRise t => exact ⟨t, .inr rfl⟩
  | onEdge e =>
    obtain ⟨level, t⟩ := e
    cases level with
    | low => exact ⟨t, .inl (exec_onEdge_low t s)⟩
    | high => exact ⟨t, .inr (exec_onEdge_high t s)⟩
  | _ => cases h

theorem filterOp_frame {i : Instr} (h : isFilterOp i = true) (s : State) :
    ∃ t, exec i s = .next t ∧ FilterFrame s t := by
  obtain ⟨t, fall | rise⟩ := filterOp_eq h s
  · rw [fall]
    exact whileRunning_frame (filterFrame_ret s _) fun _ => filterFrame_debounced_fall t s
  · rw [rise]
    exact whileRunning_frame (filterFrame_ret s _) fun _ => filterFrame_debounced_rise t s

/-- The decoder's frame when nothing is emitted. -/
theorem decoderFrame_silent (s : State) (b : U8) (n : Nat) (p : Bool) (q : List U8) (r : OpResult) :
    DecoderFrame s { s with currentByte := b, currentBitCount := n, partialFrame := p, q := q,
                            result := r } :=
  ⟨b, n, p, q, [], r, by rw [List.append_nil], Nat.zero_le _, List.forall_mem_nil _⟩

theorem decoderFrame_ret (s : State) (r : OpResult) : DecoderFrame s (s.ret r) :=
  decoderFrame_silent s _ _ _ _ r

theorem decoderFrame_gapCase (s : State) : DecoderFrame s (gapCase s) := by
  obtain ⟨-, -, h⟩ | ⟨-, h⟩ := gapCase_cases s
  · exact ⟨0, 0, s.partialFrame, s.q, [.strayBitsDiscarded s.currentBitCount], .done, h, by simp,
      by simp [isDecoderEvent]⟩
  · rw [h]; exact decoderFrame_silent s _ _ _ _ _

theorem decoderFrame_dataCase (v : Bool) (s : State) : DecoderFrame s (dataCase v s) := by
  obtain ⟨-, h⟩ | ⟨-, h⟩ := dataCase_cases v s
  · exact ⟨0, 0, true, s.q, [.byte (s.storeBit v).currentByte], .done, h, by simp,
      by simp [isDecoderEvent]⟩
  · rw [h]; exact decoderFrame_silent s _ _ _ _ _

theorem decoderFrame_processSample (v : U8) (s : State) : DecoderFrame s (processSample v s) := by
  obtain ⟨-, h⟩ | ⟨-, h⟩ | ⟨-, h⟩ := processSample_cases v s
  · rw [h]; exact decoderFrame_gapCase s
  · rw [h]; exact decoderFrame_dataCase true s
  · rw [h]; exact decoderFrame_dataCase false s

/-- The pop before the case: the frame leaves the queue open, so it may be replaced beforehand. -/
theorem decoderFrame_of_withQueue {s t : State} {q : List U8} (h : DecoderFrame (s.withQueue q) t) :
    DecoderFrame s t := by
  obtain ⟨b, n, p, q', es, r, rfl, short, own⟩ := h
  exact ⟨b, n, p, q', es, r, rfl, short, own⟩

theorem decoderFrame_decodeNext (s : State) : DecoderFrame s (decodeNext s) := by
  obtain ⟨-, h⟩ | ⟨v, rest, -, h⟩ := decodeNext_cases s
  · rw [h]; exact decoderFrame_ret s _
  · rw [h]; exact decoderFrame_of_withQueue (decoderFrame_processSample v _)

theorem decoderFrame_flushFrame (s : State) : DecoderFrame s (flushFrame s) := by
  obtain ⟨-, h⟩ | ⟨-, h⟩ := flushFrame_cases s
  · exact ⟨s.currentByte, s.currentBitCount, false, s.q, [.frameEnd], .done, h, by simp,
      by simp [isDecoderEvent]⟩
  · refine ⟨0, 0, false, s.q, [.strayBitsDiscarded s.currentBitCount, .frameEnd], .done, ?_, by simp,
      by simp [isDecoderEvent]⟩
    simp [h, State.ret, State.clearPartial, State.emit, State.clearAccumulator]

theorem decoderOp_frame {i : Instr} (h : isDecoderOp i = true) (s : State) :
    ∃ t, exec i s = .next t ∧ DecoderFrame s t := by
  have gated {op : State → State} (performed : DecoderFrame s (op s)) :
      ∃ t, whileRunning s op = .next t ∧ DecoderFrame s t :=
    whileRunning_frame (decoderFrame_ret s _) fun _ => performed
  cases i with
  | sGap _ => exact gated (decoderFrame_gapCase s)
  | sOne _ => exact gated (decoderFrame_dataCase true s)
  | sZero _ => exact gated (decoderFrame_dataCase false s)
  | decSample => exact gated (decoderFrame_decodeNext s)
  | decFlush now =>
    rw [exec_decFlush]
    refine gated ?_
    split
    · exact decoderFrame_flushFrame s
    · exact decoderFrame_ret s _
  | _ => cases h

/-- The transmit path's frame when nothing is emitted. -/
theorem transmitFrame_silent (s : State) (st : TxState) (w : Waveform) (e : Nat) (l : PinLevel)
    (c : Nat) (r : OpResult) :
    TransmitFrame s { s with txState := st, txWave := w, txElapsed := e, tx := l, freeCount := c,
                             result := r } :=
  ⟨st, w, e, l, c, [], r, by rw [List.append_nil], Nat.zero_le _, List.forall_mem_nil _⟩

theorem transmitFrame_ret (s : State) (r : OpResult) : TransmitFrame s (s.ret r) :=
  transmitFrame_silent s _ _ _ _ _ r

/-- The transmit path's frame when a `SendResult` is emitted. -/
theorem transmitFrame_reporting (s : State) (st : TxState) (w : Waveform) (e : Nat) (l : PinLevel)
    (outcome : SendOutcome) (r : OpResult) :
    TransmitFrame s { s with txState := st, txWave := w, txElapsed := e, tx := l,
                             out := s.out ++ [.sendResult outcome], result := r } :=
  ⟨st, w, e, l, s.freeCount, [.sendResult outcome], r, rfl, Nat.le_refl _, by simp [isDecoderEvent]⟩

theorem transmitFrame_sendCommand (str : List Char) (now : Tick) (s : State) :
    TransmitFrame s ((sendCommand str now s).ret .done) := by
  obtain ⟨-, h⟩ | ⟨_, -, -, h⟩ | ⟨bytes, -, -, -, h⟩ := sendCommand_cases str now s
  · rw [h]; exact transmitFrame_reporting s _ _ _ _ .malformedCommand _
  · rw [h]; exact transmitFrame_reporting s _ _ _ _ .busBusy _
  · rw [h]; exact transmitFrame_silent s _ _ _ _ _ _

theorem transmitFrame_advance (s : State) :
    TransmitFrame s ((advanceMicrosecond s).ret .done) := by
  obtain ⟨-, h⟩ | ⟨-, -, h⟩ | ⟨-, -, -, h⟩ | ⟨-, -, h⟩ | ⟨-, -, h⟩ | ⟨-, -, h⟩ :=
    advanceMicrosecond_cases s
  · rw [h]; exact transmitFrame_silent s _ _ _ _ _ _
  · rw [h]; exact transmitFrame_silent s _ _ _ _ _ _
  · rw [h]; exact transmitFrame_silent s _ _ _ _ _ _
  · rw [h]; exact transmitFrame_reporting s _ _ _ _ .ok _
  · rw [h]; exact transmitFrame_silent s _ _ _ _ _ _
  · rw [h]; exact transmitFrame_reporting s _ _ _ _ .ok _

theorem transmitOp_frame {i : Instr} (h : isTransmitOp i = true) (s : State) :
    ∃ t, exec i s = .next t ∧ TransmitFrame s t := by
  cases i with
  | send str now =>
    rw [exec_send]
    exact whileRunning_frame (transmitFrame_ret s _) fun _ => transmitFrame_sendCommand str now s
  | txAdvance =>
    refine ⟨_, exec_txAdvance s, ?_⟩
    cases s.halted with
    | true => exact transmitFrame_silent s _ _ _ _ _ _
    | false => exact transmitFrame_advance s
  | _ => cases h

theorem quietOp_frame {i : Instr} (h : isQuietOp i = true) (s : State) :
    ∃ t, exec i s = .next t ∧ QuietFrame s t := by
  have gated {op : State → State} (performed : QuietFrame s (op s)) :
      ∃ t, whileRunning s op = .next t ∧ QuietFrame s t :=
    whileRunning_frame ⟨_, _, rfl⟩ fun _ => performed
  cases i with
  | sync | bit1 | bit0 => exact gated ⟨_, _, rfl⟩
  | encode bytes => rw [exec_encode]; exact gated ⟨_, _, rfl⟩
  | isIdle now => rw [exec_isIdle]; exact gated ⟨_, _, rfl⟩
  | _ => cases h

theorem exec_hwFail_running {s : State} (running : s.halted = false) :
    exec .hwFail s =
      .next { s with halted := true, tx := Config.freePinLevel s.freeCount,
                     freeCount := s.freeCount + 1, result := .done } := by
  rw [exec_hwFail, whileRunning_running running]
  rfl

/-- Settles O44. -/
theorem hwFailHaltsAndFreesThePin : Obligations.HwFailHaltsAndFreesThePin := by
  unfold Obligations.HwFailHaltsAndFreesThePin
  exact fun s running => ⟨.done, exec_hwFail_running running⟩

/-- `HW_FAIL` in any state: the block is halted afterwards, and only the pin is written beside that. -/
theorem hwFail_frame (s : State) : ∃ l c r,
    exec .hwFail s = .next { s with halted := true, tx := l, freeCount := c, result := r } := by
  cases h : s.halted with
  | true =>
    refine ⟨s.tx, s.freeCount, .noStep, ?_⟩
    rw [exec_of_halted h Instr.noConfusion Instr.noConfusion, ← h]
    rfl
  | false => exact ⟨_, _, _, exec_hwFail_running h⟩

/-- All that an operation can do, by its agent. -/
theorem exec_frame_cases {i : Instr} {s t : State} (h : exec i s = .next t) :
    (isFilterOp i = true ∧ FilterFrame s t) ∨ (isDecoderOp i = true ∧ DecoderFrame s t) ∨
    (isTransmitOp i = true ∧ TransmitFrame s t) ∨ (isQuietOp i = true ∧ QuietFrame s t) ∨
    (i = .hwFail ∧
      ∃ l c r, t = { s with halted := true, tx := l, freeCount := c, result := r }) ∨
    (i = .reset ∧ t = { State.reset with inbox := s.inbox, freeCount := s.freeCount }) := by
  have same {u : State} (hu : exec i s = .next u) : u = t := by
    rw [hu] at h
    exact Host.Outcome.next.inj h
  obtain agent | agent | agent | agent | rfl | rfl := agent_cases i
  · obtain ⟨u, hu, frame⟩ := filterOp_frame agent s
    exact .inl ⟨agent, same hu ▸ frame⟩
  · obtain ⟨u, hu, frame⟩ := decoderOp_frame agent s
    exact .inr (.inl ⟨agent, same hu ▸ frame⟩)
  · obtain ⟨u, hu, frame⟩ := transmitOp_frame agent s
    exact .inr (.inr (.inl ⟨agent, same hu ▸ frame⟩))
  · obtain ⟨u, hu, frame⟩ := quietOp_frame agent s
    exact .inr (.inr (.inr (.inl ⟨agent, same hu ▸ frame⟩)))
  · obtain ⟨l, c, r, hu⟩ := hwFail_frame s
    exact .inr (.inr (.inr (.inr (.inl ⟨rfl, l, c, r, (same hu).symm⟩))))
  · exact .inr (.inr (.inr (.inr (.inr ⟨rfl, (same (exec_reset s)).symm⟩))))

/-- Settles O50: each frame appends at most two events. -/
theorem outputIsAppendOnly : Obligations.OutputIsAppendOnly := by
  unfold Obligations.OutputIsAppendOnly
  intro i s t not_reset h
  obtain ⟨-, _, _, _, _, rfl⟩ | ⟨-, _, _, _, _, es, _, rfl, short, -⟩ |
    ⟨-, _, _, _, _, _, es, _, rfl, short, -⟩ | ⟨-, _, _, rfl⟩ | ⟨-, _, _, _, rfl⟩ | ⟨rfl, -⟩ :=
    exec_frame_cases h
  · exact ⟨[], (List.append_nil _).symm, Nat.zero_le _⟩
  · exact ⟨es, rfl, short⟩
  · exact ⟨es, rfl, Nat.le_succ_of_le short⟩
  · exact ⟨[], (List.append_nil _).symm, Nat.zero_le _⟩
  · exact ⟨[], (List.append_nil _).symm, Nat.zero_le _⟩
  · exact absurd rfl not_reset

/-- The queue is written by rising edges and by `DEC_SAMPLE` alone. -/
theorem exec_keeps_q {i : Instr} {s t : State} (not_reset : i ≠ .reset) (h : exec i s = .next t)
    (not_filter : isFilterOp i = false) (not_pop : i ≠ .decSample) : t.q = s.q := by
  obtain kept | ⟨pop, -⟩ | ⟨reset, -⟩ | ⟨⟨tick, edge, -⟩, -⟩ := exec_queue_cases i h
  · exact kept
  · exact absurd pop not_pop
  · exact absurd reset not_reset
  · rcases edge with rfl | rfl <;> cases not_filter

/-- Settles O49: the fields outside an agent's frame, read off the frame; the queue is O30's inversion. -/
theorem eachFieldHasOneWriter : Obligations.EachFieldHasOneWriter := by
  unfold Obligations.EachFieldHasOneWriter
  intro i s t not_reset h
  have queue := exec_keeps_q not_reset h
  obtain ⟨agent, _, _, _, _, rfl⟩ | ⟨agent, _, _, _, _, es, _, rfl, -, -⟩ |
    ⟨agent, _, _, _, _, _, es, _, rfl, -, -⟩ | ⟨agent, _, _, rfl⟩ | ⟨rfl, _, _, _, rfl⟩ | ⟨rfl, -⟩ :=
    exec_frame_cases h
  · simp [agent]
  · simpa [agent] using queue
  · simp [agent]
  · simp
  · simp
  · exact absurd rfl not_reset

end Sys2Proof.Machine

/-! ## The decoder's operations, case by case (43_decoder.md sections 1 to 3) -/

namespace Sys2Proof.Machine

/-! ### A gap sample (R112) -/

theorem gapCase_of_bits {s : State} (owed : s.partialFrame = true) (bits : s.currentBitCount ≠ 0) :
    gapCase s = { s with currentBitCount := 0, currentByte := 0,
                         out := s.out ++ [.strayBitsDiscarded s.currentBitCount], result := .done } := by
  rw [gapCase, if_pos ⟨owed, bits⟩]
  rfl

theorem gapCase_of_clean {s : State} (clean : ¬ (s.partialFrame = true ∧ s.currentBitCount ≠ 0)) :
    gapCase s = { s with currentBitCount := 0, currentByte := 0, result := .done } := by
  rw [gapCase, if_neg clean]
  rfl

theorem gapCase_eq (s : State) :
    gapCase s = { s with currentBitCount := 0, currentByte := 0, result := .done,
                         out := s.out ++ (if s.partialFrame = true ∧ s.currentBitCount ≠ 0 then
                           [.strayBitsDiscarded s.currentBitCount] else []) } := by
  by_cases bits : s.partialFrame = true ∧ s.currentBitCount ≠ 0
  · rw [gapCase_of_bits bits.1 bits.2, if_pos bits]
  · rw [gapCase_of_clean bits, if_neg bits, List.append_nil]

/-! ### A data sample (R113, R114) -/

theorem dataCase_of_last (v : Bool) {s : State} (last : s.currentBitCount = 7) :
    dataCase v s = { s with partialFrame := true, currentBitCount := 0, currentByte := 0,
                            out := s.out ++ [.byte (assignBit s.currentByte (7 - s.currentBitCount) v)],
                            result := .done } := by
  have complete : (s.storeBit v).currentBitCount = params.byteBits := congrArg (· + 1) last
  rw [dataCase, completeByte, if_pos complete]
  simp only [State.ret, State.clearAccumulator, State.emit, State.storeBit, params_byteBits]
  rw [last]

theorem dataCase_of_not_last (v : Bool) {s : State} (early : s.currentBitCount ≠ 7) :
    dataCase v s = { s with partialFrame := true, currentBitCount := s.currentBitCount + 1,
                            currentByte := assignBit s.currentByte (7 - s.currentBitCount) v,
                            result := .done } := by
  have incomplete : (s.storeBit v).currentBitCount ≠ params.byteBits := fun full =>
    early (Nat.succ.inj full)
  rw [dataCase, completeByte, if_neg incomplete]
  simp only [State.ret, State.storeBit, params_byteBits, Nat.reduceSubDiff]

/-- `B[i] <- v` reads back as `v` at `i` and as before elsewhere. -/
theorem getLsbD_assignBit (b : U8) {i : Nat} (hi : i < 8) (v : Bool) (k : Nat) :
    (assignBit b i v).getLsbD k = if k = i then v else b.getLsbD k := by
  have single : (1#8 <<< i).getLsbD k = decide (k = i) := by
    rw [← BitVec.twoPow_eq, BitVec.getLsbD_twoPow]
    grind
  cases v with
  | true =>
    rw [assignBit, if_pos rfl, BitVec.getLsbD_or, single]
    by_cases hk : k = i <;> simp [hk]
  | false =>
    rw [assignBit, if_neg Bool.false_ne_true, BitVec.getLsbD_and, BitVec.getLsbD_not, single]
    by_cases hk : k = i <;> simp [hk]
    exact fun held => BitVec.lt_of_getLsbD held

/-! ### `DEC_SAMPLE` and `DEC_FLUSH` (R110, R111, R115) -/

theorem processSample_of_gap {v : U8} (h : 2000 < 10 * v.toNat) (s : State) :
    processSample v s = gapCase s := by
  have gap : classify v = .gap := (classify_gap_iff v).mpr (by omega)
  rw [processSample, gap]

/-- A data sample is a 1 exactly above raw 900 (R116, R117). -/
theorem processSample_of_data {v : U8} (h : 10 * v.toNat ≤ 2000) (s : State) :
    processSample v s = dataCase (decide (900 < 10 * v.toNat)) s := by
  by_cases above : 900 < 10 * v.toNat
  · have one : classify v = .one := (classify_one_iff v).mpr (by omega)
    rw [processSample, one, decide_eq_true above]
  · have zero : classify v = .zero := (classify_zero_iff v).mpr (by omega)
    rw [processSample, zero, decide_eq_false above]

theorem decodeNext_of_nil {s : State} (h : s.q = []) : decodeNext s = s.ret .noStep := by
  rw [decodeNext, h]
  rfl

theorem decodeNext_of_cons {s : State} {v : U8} {rest : List U8} (h : s.q = v :: rest) :
    decodeNext s = processSample v (s.withQueue rest) := by
  rw [decodeNext, h]
  rfl

theorem exec_decSample_of_cons {s : State} {v : U8} {rest : List U8} (running : s.halted = false)
    (h : s.q = v :: rest) : exec .decSample s = .next (processSample v (s.withQueue rest)) := by
  rw [exec_decSample, whileRunning_running running, decodeNext_of_cons h]

/-- `DEC_SAMPLE` on an empty queue has no step, also in a halted block. -/
theorem exec_decSample_of_nil {s : State} (h : s.q = []) :
    exec .decSample s = .next (s.ret .noStep) := by
  rw [exec_decSample, whileRunning, decodeNext_of_nil h, ite_self]

theorem flushFrame_of_no_bits {s : State} (none_held : s.currentBitCount = 0) :
    flushFrame s = { s with partialFrame := false, out := s.out ++ [.frameEnd], result := .done } := by
  obtain ⟨-, h⟩ | ⟨bits, -⟩ := flushFrame_cases s
  · exact h
  · exact absurd none_held bits

theorem flushFrame_of_bits {s : State} (bits : s.currentBitCount ≠ 0) :
    flushFrame s = { s with partialFrame := false, currentBitCount := 0, currentByte := 0,
                            out := s.out ++ [.strayBitsDiscarded s.currentBitCount, .frameEnd],
                            result := .done } := by
  obtain ⟨none_held, -⟩ | ⟨-, h⟩ := flushFrame_cases s
  · exact absurd none_held bits
  · rw [h, List.append_cons]
    rfl

theorem exec_decFlush_of_enabled {now : Tick} {s : State} (h : decFlushEnabled now s = true) :
    exec (.decFlush now) s = .next (flushFrame s) := by
  obtain ⟨running, -⟩ := (decFlushEnabled_iff now s).mp h
  rw [exec_decFlush, whileRunning_running running, if_pos h]

/-- Where it is not enabled a flush has no step; a halted block is one of these cases. -/
theorem exec_decFlush_of_disabled {now : Tick} {s : State} (h : decFlushEnabled now s = false) :
    exec (.decFlush now) s = .next (s.ret .noStep) := by
  rw [exec_decFlush, whileRunning, if_neg (ne_true_of_eq_false h), ite_self]

/-! ### The obligations about single decoder operations -/

/-- Settles O34: the gap's row, and `DEC_SAMPLE` on a gap sample as that row after the pop. -/
theorem gapDiscardsBitsInProgress : Obligations.GapDiscardsBitsInProgress := by
  unfold Obligations.GapDiscardsBitsInProgress
  intro v rest s running
  constructor
  · refine ⟨.done, ?_⟩
    rw [exec_sGap, whileRunning_running running, gapCase_eq]
  · intro head gap
    refine ⟨.done, ?_⟩
    rw [exec_decSample_of_cons running head, processSample_of_gap gap, gapCase_eq]
    rfl

/-- The data case in the form of O35, for any bit. -/
theorem dataCase_eq (v : Bool) (s : State) :
    dataCase v s =
      if s.currentBitCount = 7 then
        { s with partialFrame := true, currentBitCount := 0, currentByte := 0,
                 out := s.out ++ [.byte (assignBit s.currentByte (7 - s.currentBitCount) v)],
                 result := .done }
      else
        { s with partialFrame := true, currentBitCount := s.currentBitCount + 1,
                 currentByte := assignBit s.currentByte (7 - s.currentBitCount) v, result := .done } := by
  split
  · exact dataCase_of_last v ‹_›
  · exact dataCase_of_not_last v ‹_›

/-- Settles O35: the three operations all perform the data case, whose byte is read bit by bit. -/
theorem dataSampleAccumulates : Obligations.DataSampleAccumulates := by
  unfold Obligations.DataSampleAccumulates
  intro v rest s i bit running bound operation
  have performs : exec i s = .next (dataCase bit (s.withQueue rest)) := by
    obtain ⟨rfl, head, data, rfl⟩ | ⟨rfl, rfl, rfl⟩ | ⟨rfl, rfl, rfl⟩ := operation
    · rw [exec_decSample_of_cons running head, processSample_of_data data]
    · exact whileRunning_running running _
    · exact whileRunning_running running _
  refine ⟨assignBit s.currentByte (7 - s.currentBitCount) bit, fun k _ => ?_, .done, ?_⟩
  · exact getLsbD_assignBit s.currentByte (by omega) bit k
  · rw [performs, dataCase_eq]
    rfl

/-- Settles O36: after the pop, the case of the sample's class is the row's own operation. -/
theorem decSampleIsItsClassCase : Obligations.DecSampleIsItsClassCase := by
  unfold Obligations.DecSampleIsItsClassCase
  intro v rest s head running
  have performed (op : State → State) := whileRunning_running (s := s.withQueue rest) running op
  rw [exec_decSample_of_cons running head, processSample]
  cases kind : classify v with
  | gap => rw [decodeSample8_of_gap kind]; exact (performed gapCase).symm
  | one => rw [decodeSample8_of_one kind]; exact (performed (dataCase true)).symm
  | zero => rw [decodeSample8_of_zero kind]; exact (performed (dataCase false)).symm

/-- Settles O38: the flush is enabled, and reports the bits held if there are any. -/
theorem flushEmitsTheTerminator : Obligations.FlushEmitsTheTerminator := by
  unfold Obligations.FlushEmitsTheTerminator
  intro now s running empty owed late
  have enabled := (decFlushEnabled_iff now s).mpr ⟨running, empty, owed, (isIdle_iff now s).mpr late⟩
  refine ⟨.done, ?_⟩
  rw [exec_decFlush_of_enabled enabled]
  split
  · rw [flushFrame_of_no_bits ‹_›]
  · rw [flushFrame_of_bits ‹_›]

@[simp] theorem gapCase_result (s : State) : (gapCase s).result = .done := rfl
@[simp] theorem dataCase_result (v : Bool) (s : State) : (dataCase v s).result = .done := rfl
@[simp] theorem flushFrame_result (s : State) : (flushFrame s).result = .done := rfl

@[simp] theorem processSample_result (v : U8) (s : State) : (processSample v s).result = .done := by
  obtain ⟨-, h⟩ | ⟨-, h⟩ | ⟨-, h⟩ := processSample_cases v s <;> simp [h]

/-- A `DEC_SAMPLE` without a step is told by the model's own `result`. -/
theorem exec_decSample_steps_iff {s t : State} (h : exec .decSample s = .next t) :
    t.result ≠ .noStep ↔ decSampleEnabled s = true := by
  obtain ⟨halted, rfl⟩ | ⟨running, rfl⟩ := whileRunning_cases h
  · simp [decSampleEnabled, halted]
  · obtain ⟨empty, performed⟩ | ⟨v, rest, head, performed⟩ := decodeNext_cases s
    · simp [decSampleEnabled, empty, performed]
    · simp [decSampleEnabled, head, performed, running]

theorem exec_decFlush_steps_iff {now : Tick} {s t : State} (h : exec (.decFlush now) s = .next t) :
    t.result ≠ .noStep ↔ decFlushEnabled now s = true := by
  cases enabled : decFlushEnabled now s with
  | true => rw [exec_decFlush_of_enabled enabled] at h; cases h; simp
  | false => rw [exec_decFlush_of_disabled enabled] at h; cases h; simp

/-- Settles O39: the enabling conditions exclude each other on the queue. -/
theorem decoderStepsOnlyWhenEnabled : Obligations.DecoderStepsOnlyWhenEnabled := by
  unfold Obligations.DecoderStepsOnlyWhenEnabled
  intro now s
  refine ⟨exec_decSample_of_nil, fun closed => exec_decFlush_of_disabled ?_,
    fun t => exec_decSample_steps_iff, fun t => exec_decFlush_steps_iff, ?_⟩
  · rw [← Bool.not_eq_true, decFlushEnabled_iff, isIdle_iff]
    rintro ⟨-, empty, owed, late⟩
    rcases closed with waiting | no_frame | early
    · exact waiting empty
    · simp [no_frame] at owed
    · omega
  · rintro ⟨sample, flush⟩
    obtain ⟨-, empty, -⟩ := (decFlushEnabled_iff now s).mp flush
    simp [decSampleEnabled, empty] at sample

end Sys2Proof.Machine

/-! ## One microsecond, phase by phase (40_encoder.md R73) -/

namespace Sys2Proof.Machine

section Microsecond

variable {s : State}

theorem advance_of_idle (idle : s.txState = .idle) : advanceMicrosecond s = s := if_pos idle

theorem advance_of_playing (playing : s.txState = .playing)
    (before : s.txElapsed + 1 < duration s.txWave) :
    advanceMicrosecond s =
      { s with txElapsed := s.txElapsed + 1, tx := levelAt s.txWave (s.txElapsed + 1) } := by
  simp [advanceMicrosecond, playStep, guardStep, playing, before, State.drivePin, State.countMicrosecond]

theorem advance_to_guard (playing : s.txState = .playing)
    (ended : duration s.txWave ≤ s.txElapsed + 1)
    (guarded : s.txElapsed + 1 < duration s.txWave + 20000) :
    advanceMicrosecond s =
      { s with txElapsed := s.txElapsed + 1, txState := .guard, tx := .low } := by
  simp [advanceMicrosecond, playStep, guardStep, playing, ended.not_gt, guarded.not_ge,
    State.enterGuard, State.countMicrosecond]

theorem advance_of_guard (guard : s.txState = .guard)
    (guarded : s.txElapsed + 1 < duration s.txWave + 20000) :
    advanceMicrosecond s = { s with txElapsed := s.txElapsed + 1 } := by
  simp [advanceMicrosecond, playStep, guardStep, guard, guarded.not_ge, State.countMicrosecond]

theorem advance_to_idle (guard : s.txState = .guard)
    (expired : duration s.txWave + 20000 ≤ s.txElapsed + 1) :
    advanceMicrosecond s =
      { s with txState := .idle, txWave := [], txElapsed := 0, out := s.out ++ [.sendResult .ok] } := by
  simp [advanceMicrosecond, playStep, guardStep, guard, expired, State.countMicrosecond,
    State.finishSend, State.emit]

/-- A waveform that is past its guard while it plays; no run reaches this (R73 applied literally). -/
theorem advance_of_playing_past_guard (playing : s.txState = .playing)
    (expired : duration s.txWave + 20000 ≤ s.txElapsed + 1) :
    advanceMicrosecond s =
      { s with txState := .idle, txWave := [], txElapsed := 0, tx := .low,
               out := s.out ++ [.sendResult .ok] } := by
  have ended : ¬ s.txElapsed + 1 < duration s.txWave := by omega
  simp [advanceMicrosecond, playStep, guardStep, playing, ended, expired, State.countMicrosecond,
    State.enterGuard, State.finishSend, State.emit]

end Microsecond

theorem exec_txAdvance_running {s : State} (running : s.halted = false) :
    exec .txAdvance s = .next ((advanceMicrosecond s).ret .done) := by
  rw [exec_txAdvance, if_neg (ne_true_of_eq_false running)]

/-- Settles O21: each clause is one phase of the sequencer. -/
theorem microsecondAdvancesTheSequencer : Obligations.MicrosecondAdvancesTheSequencer := by
  unfold Obligations.MicrosecondAdvancesTheSequencer
  intro s running
  rw [exec_txAdvance_running running]
  refine ⟨fun idle => ⟨.done, ?_⟩, fun playing before => ⟨.done, ?_⟩,
    fun playing ended guarded => ⟨.done, ?_⟩, fun guard guarded => ⟨.done, ?_⟩,
    fun guard expired => ⟨.done, ?_⟩⟩
  · rw [advance_of_idle idle]; rfl
  · rw [advance_of_playing playing before]; rfl
  · rw [advance_to_guard playing ended guarded]; rfl
  · rw [advance_of_guard guard guarded]; rfl
  · rw [advance_to_idle guard expired]; rfl

end Sys2Proof.Machine

/-! ## Halting, reset and the first operations (60_exceptions.md R134, 70_reset_and_hazards.md R155) -/

namespace Sys2Proof.Machine

/-- Settles O45, by induction on the operations: each leaves a halted block halted, and only the
microsecond draws a new level for the pin. -/
theorem haltedBlockStaysHalted : Obligations.HaltedBlockStaysHalted := by
  unfold Obligations.HaltedBlockStaysHalted
  intro ops
  induction ops with
  | nil => exact fun s _ _ => ⟨s.tx, s.freeCount, s.result, rfl, fun _ => ⟨rfl, rfl⟩⟩
  | cons i ops ih =>
    intro s halted not_reset
    obtain ⟨first, others⟩ := List.forall_mem_cons.mp not_reset
    by_cases advance : i = .txAdvance
    · subst advance
      obtain ⟨l, c, r, run, -⟩ := ih (s.freePin.ret .noStep) halted others
      refine ⟨l, c, r, ?_, fun none_advances => absurd rfl (none_advances _ List.mem_cons_self)⟩
      rw [performAll_cons (exec_txAdvance_of_halted halted), run]
      rfl
    · obtain ⟨l, c, r, run, pin⟩ := ih (s.ret .noStep) halted others
      refine ⟨l, c, r, ?_, fun none_advances => pin (List.forall_mem_cons.mp none_advances).2⟩
      rw [performAll_cons (exec_of_halted halted first advance), run]
      rfl

/-- Settles O46. -/
theorem resetLeavesTheResetValues : Obligations.ResetLeavesTheResetValues := by
  unfold Obligations.ResetLeavesTheResetValues
  exact fun s => ⟨.done, exec_reset s⟩

/-- An accepted command, everything of the state written out. -/
theorem exec_send_of_accepted {str : List Char} {now : Tick} {s : State} {bytes : List U8}
    (running : s.halted = false) (parses : parseHex str = some bytes) (free : s.txState = .idle)
    (idle : isIdle now s = true) :
    exec (.send str now) s =
      .next { s with txWave := encodeBytes bytes, txElapsed := 0, txState := .playing, tx := .high,
                     result := .done } := by
  rw [exec_send, whileRunning_running running]
  obtain ⟨malformed, -⟩ | ⟨_, -, busy, -⟩ | ⟨_, parses', -, -, answer⟩ := sendCommand_cases str now s
  · rw [parses] at malformed
    contradiction
  · simp [txBusy, free, idle] at busy
  · rw [parses, Option.some.injEq] at parses'
    rw [answer, parses']
    rfl

/-- Settles O20. -/
theorem idleSendIsAccepted : Obligations.IdleSendIsAccepted := by
  unfold Obligations.IdleSendIsAccepted
  intro str now s bytes running parses free late
  exact ⟨.done, exec_send_of_accepted running parses free ((isIdle_iff now s).mpr late)⟩

/-- Settles O18: of the cases of `SEND` only the first has a string that does not parse. -/
theorem malformedCommandChangesNothing : Obligations.MalformedCommandChangesNothing := by
  unfold Obligations.MalformedCommandChangesNothing
  intro str now s running malformed
  refine ⟨.done, ?_⟩
  rw [exec_send, whileRunning_running running]
  obtain ⟨-, answer⟩ | ⟨_, parses, -⟩ | ⟨_, parses, -⟩ := sendCommand_cases str now s
  · rw [answer]
    rfl
  · rw [malformed] at parses
    contradiction
  · rw [malformed] at parses
    contradiction

/-- Against a reference at tick 0, where reset leaves both registers, the difference is the tick. -/
theorem tdiff_zero (t : Tick) : tdiff t 0 = t := sub_zero t

/-- Settles O52: the debounce and the idle test with both references at tick 0. -/
theorem firstOperationsAfterReset : Obligations.FirstOperationsAfterReset := by
  unfold Obligations.FirstOperationsAfterReset
  refine ⟨fun e early => ?_, fun t late => ?_, fun str now bytes parses => ?_⟩
  · have close : (tdiff e.timestamp State.reset.lastInterruptTick).toNat < 100 := by
      rwa [reset_lastInterruptTick, tdiff_zero]
    rw [exec_onEdge]
    exact whileRunning_debounced_of_close reset_halted close _
  · have accepted : 100 ≤ (tdiff t State.reset.lastInterruptTick).toNat := by
      rwa [reset_lastInterruptTick, tdiff_zero]
    refine ⟨_, exec_edgeRise_of_late reset_halted accepted, ?_⟩
    change qPush [] (quant (tdiff t 0).toNat) = _
    rw [tdiff_zero]
    rfl
  · have gate : isIdle now State.reset = true ↔ 21800 < now.toNat := by
      rw [isIdle_iff, reset_lastFallingEdgeTick, tdiff_zero]
    by_cases late : 21800 < now.toNat
    · exact ⟨_, exec_send_of_accepted reset_halted parses reset_txState (gate.mpr late),
        fun early => absurd late early.not_gt, fun _ => ⟨rfl, rfl, rfl⟩⟩
    · have closed : isIdle now State.reset = false := by rwa [← Bool.not_eq_true, gate]
      exact ⟨_, exec_send_of_busy reset_halted parses (.inr closed), fun _ => ⟨rfl, rfl⟩,
        fun h => absurd h late⟩

end Sys2Proof.Machine

/-! ## The step and the operations lined up (20_memory.md R38 and R41, assumption log 1) -/

namespace Sys2Proof.Machine

/-- Settles O1: waiting, performing and refusing; the fetch form is a performing step. -/
theorem stepPerformsTheDecodedOperation : Obligations.StepPerformsTheDecodedOperation := by
  unfold Obligations.StepPerformsTheDecodedOperation
  intro s
  refine ⟨step_waits, fun w rest lined => ⟨fun i decodes => step_performs lined decodes,
    fun e rejects => step_refuses lined rejects⟩, fun nbits w i reads => ?_⟩
  unfold decodeTableWord at reads
  split at reads
  · rename_i j decodes
    cases reads
    exact step_performs (s := s.withFetchWord nbits w) (rest := s.inbox) rfl decodes
  · cases reads

/-! No operation reads what is lined up: it can be replaced before or after the operation. -/

section Inbox

variable (ws : List Word) (s : State)

theorem gapCase_withInbox : gapCase (s.withInbox ws) = (gapCase s).withInbox ws := by
  rw [gapCase_eq, gapCase_eq]
  rfl

theorem dataCase_withInbox (v : Bool) :
    dataCase v (s.withInbox ws) = (dataCase v s).withInbox ws := by
  by_cases last : s.currentBitCount = 7
  · rw [dataCase_of_last v last, dataCase_of_last v (s := s.withInbox ws) last]
    rfl
  · rw [dataCase_of_not_last v last, dataCase_of_not_last v (s := s.withInbox ws) last]
    rfl

theorem processSample_withInbox (v : U8) :
    processSample v (s.withInbox ws) = (processSample v s).withInbox ws := by
  unfold processSample
  split
  · exact gapCase_withInbox ws s
  · exact dataCase_withInbox ws s true
  · exact dataCase_withInbox ws s false

theorem decodeNext_withInbox : decodeNext (s.withInbox ws) = (decodeNext s).withInbox ws := by
  cases h : s.q with
  | nil => rw [decodeNext_of_nil h, decodeNext_of_nil (s := s.withInbox ws) h]; rfl
  | cons v rest =>
    rw [decodeNext_of_cons h, decodeNext_of_cons (s := s.withInbox ws) h]
    exact processSample_withInbox ws (s.withQueue rest) v

theorem flushFrame_withInbox : flushFrame (s.withInbox ws) = (flushFrame s).withInbox ws := by
  by_cases h : s.currentBitCount = 0
  · rw [flushFrame_of_no_bits h, flushFrame_of_no_bits (s := s.withInbox ws) h]; rfl
  · rw [flushFrame_of_bits h, flushFrame_of_bits (s := s.withInbox ws) h]; rfl

theorem debounced_withInbox (t : Tick) {case : State → State}
    (comm : ∀ s, case (s.withInbox ws) = (case s).withInbox ws) :
    debounced t case (s.withInbox ws) = (debounced t case s).withInbox ws := by
  by_cases close : (tdiff t s.lastInterruptTick).toNat < 100
  · rw [debounced_of_close close, debounced_of_close (s := s.withInbox ws) close]
    rfl
  · rw [Nat.not_lt] at close
    rw [debounced_of_late close, debounced_of_late (s := s.withInbox ws) close]
    exact comm (s.acceptEdge t)

theorem sendCommand_withInbox (str : List Char) (now : Tick) :
    sendCommand str now (s.withInbox ws) = (sendCommand str now s).withInbox ws := by
  have gate : (txBusy (s.withInbox ws) || !isIdle now (s.withInbox ws)) =
      (txBusy s || !isIdle now s) := rfl
  unfold sendCommand
  rw [gate]
  split
  · rfl
  · split <;> rfl

theorem advanceMicrosecond_withInbox :
    advanceMicrosecond (s.withInbox ws) = (advanceMicrosecond s).withInbox ws := by
  obtain ⟨p, -⟩ | ⟨p, q, -⟩ | ⟨p, q, r, -⟩ | ⟨p, q, -⟩ | ⟨p, q, -⟩ | ⟨p, q, -⟩ :=
    advanceMicrosecond_cases s
  · rw [advance_of_idle p, advance_of_idle (s := s.withInbox ws) p]
  · rw [advance_of_playing p q, advance_of_playing (s := s.withInbox ws) p q]; rfl
  · rw [advance_to_guard p q r, advance_to_guard (s := s.withInbox ws) p q r]; rfl
  · rw [advance_of_playing_past_guard p q, advance_of_playing_past_guard (s := s.withInbox ws) p q]; rfl
  · rw [advance_of_guard p q, advance_of_guard (s := s.withInbox ws) p q]; rfl
  · rw [advance_to_idle p q, advance_to_idle (s := s.withInbox ws) p q]; rfl

theorem whileRunning_withInbox {op : State → State} {t : State}
    (comm : op (s.withInbox ws) = (op s).withInbox ws) (h : whileRunning s op = .next t) :
    whileRunning (s.withInbox ws) op = .next (t.withInbox ws) := by
  obtain ⟨halted, rfl⟩ | ⟨running, rfl⟩ := whileRunning_cases h
  · exact whileRunning_halted (s := s.withInbox ws) halted op
  · rw [← comm]
    exact whileRunning_running (s := s.withInbox ws) running op

end Inbox

/-- Every operation answers the same whatever is lined up behind it. -/
theorem exec_withInbox {i : Instr} {s t : State} (h : exec i s = .next t) (ws : List Word) :
    exec i (s.withInbox ws) = .next (t.withInbox ws) := by
  cases i with
  | sync | bit1 | bit0 => exact whileRunning_withInbox ws s rfl h
  | sGap _ => exact whileRunning_withInbox ws s (gapCase_withInbox ws s) h
  | sOne _ => exact whileRunning_withInbox ws s (dataCase_withInbox ws s true) h
  | sZero _ => exact whileRunning_withInbox ws s (dataCase_withInbox ws s false) h
  | edgeFall t => exact whileRunning_withInbox ws s (debounced_withInbox ws s t fun _ => rfl) h
  | edgeRise t => exact whileRunning_withInbox ws s (debounced_withInbox ws s t fun _ => rfl) h
  | onEdge e =>
    obtain ⟨level, t⟩ := e
    cases level with
    | low => exact whileRunning_withInbox ws s (debounced_withInbox ws s t fun _ => rfl) h
    | high => exact whileRunning_withInbox ws s (debounced_withInbox ws s t fun _ => rfl) h
  | encode _ | isIdle _ =>
    simp only [exec_encode, exec_isIdle] at h ⊢
    exact whileRunning_withInbox ws s rfl h
  | send str now =>
    rw [exec_send] at h ⊢
    exact whileRunning_withInbox ws s
      (congrArg (State.ret · .done) (sendCommand_withInbox ws s str now)) h
  | txAdvance =>
    cases halted : s.halted with
    | true =>
      rw [exec_txAdvance_of_halted halted] at h
      cases h
      exact exec_txAdvance_of_halted halted
    | false =>
      rw [exec_txAdvance_running halted] at h
      cases h
      rw [exec_txAdvance_running (s := s.withInbox ws) halted, advanceMicrosecond_withInbox]
      rfl
  | decSample => exact whileRunning_withInbox ws s (decodeNext_withInbox ws s) h
  | decFlush now =>
    cases enabled : decFlushEnabled now s with
    | true =>
      rw [exec_decFlush_of_enabled enabled] at h
      cases h
      rw [exec_decFlush_of_enabled (s := s.withInbox ws) enabled, flushFrame_withInbox]
    | false =>
      rw [exec_decFlush_of_disabled enabled] at h
      cases h
      exact exec_decFlush_of_disabled enabled
  | reset => cases h; rfl
  | hwFail =>
    rw [exec_hwFail] at h ⊢
    exact whileRunning_withInbox ws s rfl h

theorem exec_keeps_inbox {i : Instr} {s t : State} (h : exec i s = .next t) : t.inbox = s.inbox := by
  by_cases reset : i = .reset
  · subst reset
    cases h
    rfl
  · obtain ⟨-, -, -, -, -, -, kept⟩ := eachFieldHasOneWriter i s t reset h
    exact kept

/-- One step on a well-formed operation's word is the operation. -/
theorem step_encode {i : Instr} (wf : i.wellFormed = true) {s t : State} {rest : List Word}
    (h : exec i s = .next t) :
    step (s.withInbox (encode i :: rest)) = .next (t.withInbox rest) := by
  rw [step_performs (rest := rest) rfl (decodeInvertsEncode i wf)]
  exact exec_withInbox h rest

theorem run_succ {s t : State} (h : step s = .next t) (k : Nat) :
    Host.Core.run Sys2Proof.core (k + 1) s = Host.Core.run Sys2Proof.core k t := by
  have stepped : Sys2Proof.core.step s = .next t := h
  simp only [Host.Core.run, stepped]

/-- Settles O5, by induction on the operations: each is one step (O3), and it answers the same
whatever stands behind it. -/
theorem linedUpOperationsRunInOrder : Obligations.LinedUpOperationsRunInOrder := by
  unfold Obligations.LinedUpOperationsRunInOrder
  intro ops rest
  induction ops with
  | nil => exact fun s _ => rfl
  | cons i ops ih =>
    intro s wf
    obtain ⟨first, others⟩ := List.forall_mem_cons.mp wf
    obtain ⟨t, performed⟩ := everyOperationAnswersNext i (s.withInbox rest)
    have lined : t.withInbox rest = t :=
      congrArg t.withInbox (exec_keeps_inbox performed).symm
    have stepped := step_encode (rest := ops.map encode ++ rest) first performed
    have run_rest := ih t others
    exact (run_succ stepped ops.length).trans (run_rest.trans
      ((congrArg (performAll ops) lined).trans (performAll_cons performed ops).symm))

end Sys2Proof.Machine

/-! ## Tick differences in real time (00_scope.md R5, decision D4) -/

namespace Sys2Proof.Machine

theorem toNat_tdiff (a b : Tick) : (tdiff a b).toNat = (a.toNat + 2 ^ 32 - b.toNat) % 2 ^ 32 := by
  have bounded : b.toNat < 2 ^ 32 := b.isLt
  rw [tdiff, BitVec.toNat_sub]
  congr 1
  omega

/-- Two real times that are `d` microseconds apart have ticks `d` apart, modulo 2^32. -/
theorem tdiff_ofNat_add (u d : Nat) :
    tdiff (BitVec.ofNat 32 (u + d)) (BitVec.ofNat 32 u) = BitVec.ofNat 32 d := by
  rw [BitVec.ofNat_add, tdiff_add_left]

/-- Settles O6: the difference of naturals under the modulus, then of two real times. -/
theorem tickDifferenceIsModular : Obligations.TickDifferenceIsModular := by
  unfold Obligations.TickDifferenceIsModular
  refine ⟨toNat_tdiff, fun u v ordered => ?_⟩
  obtain ⟨d, rfl⟩ := Nat.exists_eq_add_of_le ordered
  rw [tdiff_ofNat_add, BitVec.toNat_ofNat, Nat.add_sub_cancel_left]

/-- Settles O33. -/
theorem idleTestAliases : Obligations.IdleTestAliases := by
  unfold Obligations.IdleTestAliases
  intro u d s last_fall
  rw [isIdle_iff, last_fall, tdiff_ofNat_add, BitVec.toNat_ofNat]

end Sys2Proof.Machine

/-! ## A burst of pushes (20_memory.md R33) -/

namespace Sys2Proof.Machine

/-- One push is the appended queue cut to its last 200 entries. -/
theorem qPush_eq_drop {q : List U8} (h : q.length ≤ 200) (v : U8) :
    qPush q v = (q ++ [v]).drop ((q ++ [v]).length - 200) := by
  rw [List.length_append, List.length_singleton]
  by_cases full : q.length = 200
  · have nonempty : 1 ≤ q.length := by omega
    rw [qPush_of_full full, full, List.drop_append_of_le_length nonempty, List.drop_one]
  · have fits : q.length + 1 - 200 = 0 := by omega
    rw [qPush_of_not_full full, fits, List.drop_zero]

/-- Settles O31, by induction on the burst: cutting to the last 200 entries can be put off to the end. -/
theorem burstKeepsTheLastSamples : Obligations.BurstKeepsTheLastSamples := by
  unfold Obligations.BurstKeepsTheLastSamples
  intro q vs
  induction vs generalizing q with
  | nil =>
    intro bounded
    rw [List.foldl_nil, List.append_nil, Nat.sub_eq_zero_of_le bounded, List.drop_zero]
  | cons v vs ih =>
    intro bounded
    have cut : (q ++ [v]).length - 200 ≤ (q ++ [v]).length := Nat.sub_le _ _
    rw [List.foldl_cons, ih (qPush q v) (length_qPush_le bounded v), qPush_eq_drop bounded,
      ← List.drop_append_of_le_length cut, List.drop_drop, List.append_assoc, List.singleton_append]
    have total : (q ++ [v]).length - 200 +
        (((q ++ v :: vs).drop ((q ++ [v]).length - 200)).length - 200) =
          (q ++ v :: vs).length - 200 := by
      simp only [List.length_drop, List.length_append, List.length_cons, List.length_nil]
      omega
    rw [total]

end Sys2Proof.Machine

/-! ## Command strings and printed bytes (30_encoding.md R54, R55, R57) -/

namespace Sys2Proof.Machine

/-- A digit in upper or lower case stands at the place of its value. -/
theorem hexVal_eq_some_iff (c : Char) (n : Nat) : hexVal c = some n ↔
    "0123456789ABCDEF".toList[n]? = some c ∨ "0123456789abcdef".toList[n]? = some c := by
  constructor
  · intro value
    have code : Char.ofNat c.toNat = c := Char.ofNat_toNat c
    unfold hexVal at value
    generalize c.toNat = k at code value
    split_ifs at value with digit upper lower
    · obtain ⟨low, high⟩ := digit
      cases value
      subst code
      interval_cases k <;> exact .inl rfl
    · obtain ⟨low, high⟩ := upper
      cases value
      subst code
      interval_cases k <;> exact .inl rfl
    · obtain ⟨low, high⟩ := lower
      cases value
      subst code
      interval_cases k <;> exact .inr rfl
  · rintro (place | place)
    · obtain ⟨bound, -⟩ := List.getElem?_eq_some_iff.mp place
      have bound : n < 16 := bound
      interval_cases n <;> cases place <;> rfl
    · obtain ⟨bound, -⟩ := List.getElem?_eq_some_iff.mp place
      have bound : n < 16 := bound
      interval_cases n <;> cases place <;> rfl

theorem hexVal_lt {c : Char} {n : Nat} (h : hexVal c = some n) : n < 16 := by
  obtain place | place := (hexVal_eq_some_iff c n).mp h
  · exact (List.getElem?_eq_some_iff.mp place).1
  · exact (List.getElem?_eq_some_iff.mp place).1

theorem hexVal_ne_none_iff (c : Char) :
    hexVal c ≠ none ↔ c ∈ "0123456789ABCDEFabcdef".toList := by
  have both : (c ∈ "0123456789ABCDEF".toList ∨ c ∈ "0123456789abcdef".toList) ↔
      c ∈ "0123456789ABCDEFabcdef".toList := by
    simp
    tauto
  rw [← both, Option.ne_none_iff_exists', List.mem_iff_getElem?, List.mem_iff_getElem?, ← exists_or]
  exact exists_congr (hexVal_eq_some_iff c)

/-- The empty string is allowed (decision D10), so `parse_hex` is the reading of pairs. -/
theorem parseHex_eq (str : List Char) : parseHex str = hexPairs str := by
  simp [parseHex]

theorem hexPairs_cons_cons_eq_some {hi lo : Char} {rest : List Char} {bytes : List U8}
    (parsed : hexPairs (hi :: lo :: rest) = some bytes) :
    ∃ h l bs, hexVal hi = some h ∧ hexVal lo = some l ∧ hexPairs rest = some bs ∧
      bytes = BitVec.ofNat 8 (16 * h + l) :: bs := by
  rw [hexPairs] at parsed
  split at parsed
  · exact ⟨_, _, _, ‹_›, ‹_›, ‹_›, (Option.some.inj parsed).symm⟩
  · cases parsed

theorem hexPairs_cons_cons_of_some {hi lo : Char} {rest : List Char} {h l : Nat} {bs : List U8}
    (high : hexVal hi = some h) (low : hexVal lo = some l) (others : hexPairs rest = some bs) :
    hexPairs (hi :: lo :: rest) = some (BitVec.ofNat 8 (16 * h + l) :: bs) := by
  rw [hexPairs, high, low, others]

theorem hexPairs_cons_cons_eq_none_iff (hi lo : Char) (rest : List Char) :
    hexPairs (hi :: lo :: rest) = none ↔
      hexVal hi = none ∨ hexVal lo = none ∨ hexPairs rest = none := by
  cases high : hexVal hi with
  | none => simp [hexPairs, high]
  | some h =>
    cases low : hexVal lo with
    | none => simp [hexPairs, high, low]
    | some l => cases others : hexPairs rest <;> simp [hexPairs, high, low, others]

/-- By recursion on the pairs, as `hexPairs` itself. -/
theorem hexPairs_eq_none_iff : ∀ str : List Char,
    hexPairs str = none ↔ str.length % 2 = 1 ∨ ∃ c ∈ str, hexVal c = none
  | [] => by simp [hexPairs]
  | [_] => by simp [hexPairs]
  | hi :: lo :: rest => by
    have parity : (hi :: lo :: rest).length % 2 = rest.length % 2 := by
      rw [List.length_cons, List.length_cons]
      omega
    rw [hexPairs_cons_cons_eq_none_iff, hexPairs_eq_none_iff rest, parity]
    simp only [List.exists_mem_cons_iff]
    tauto

/-- The `k`-th byte is read from the `k`-th pair of digits. -/
theorem hexPairs_bytes : ∀ (str : List Char) (bytes : List U8), hexPairs str = some bytes →
    str.length = 2 * bytes.length ∧
    ∀ k h l, (str[2 * k]?).bind hexVal = some h → (str[2 * k + 1]?).bind hexVal = some l →
      (bytes[k]?).map BitVec.toNat = some (16 * h + l)
  | [], bytes, parsed => by
    cases parsed
    exact ⟨rfl, fun k h l high _ => by simp at high⟩
  | [_], _, parsed => by cases parsed
  | hi :: lo :: rest, bytes, parsed => by
    obtain ⟨h₀, l₀, bs, high₀, low₀, others, rfl⟩ := hexPairs_cons_cons_eq_some parsed
    obtain ⟨length_eq, places⟩ := hexPairs_bytes rest bs others
    refine ⟨by rw [List.length_cons, List.length_cons, length_eq, List.length_cons]; omega, ?_⟩
    intro k h l high low
    cases k with
    | zero =>
      have high : hexVal hi = some h := high
      have low : hexVal lo = some l := low
      have fits : 16 * h + l < 2 ^ 8 := by
        have := hexVal_lt high
        have := hexVal_lt low
        omega
      rw [high₀, Option.some.injEq] at high
      rw [low₀, Option.some.injEq] at low
      subst high low
      simpa using fits
    | succ k => exact places k h l high low

/-- Settles O9: the values and places of the digits, then the reading of pairs. -/
theorem commandStringParses : Obligations.CommandStringParses := by
  unfold Obligations.CommandStringParses
  simp only [parseHex_eq]
  exact ⟨hexVal_eq_some_iff, hexVal_ne_none_iff, hexPairs_eq_none_iff, hexPairs_bytes⟩

theorem hexDigit_place {n : Nat} (h : n < 16) : "0123456789ABCDEF".toList[n]? = some (hexDigit n) := by
  interval_cases n <;> rfl

theorem hexVal_hexDigit {n : Nat} (h : n < 16) : hexVal (hexDigit n) = some n :=
  (hexVal_eq_some_iff _ n).mpr (.inl (hexDigit_place h))

theorem hexDigit_mem {n : Nat} (h : n < 16) : hexDigit n ∈ "0123456789ABCDEF".toList :=
  List.mem_of_getElem? (hexDigit_place h)

/-- The two digits of a byte, high and low, are its base-16 digits. -/
theorem nibbles_lt (b : U8) : b.toNat / 16 < 16 ∧ b.toNat % 16 < 16 := by
  have bounded : b.toNat < 2 ^ 8 := b.isLt
  omega

theorem renderText_cons_byte (b : U8) (events : List OutEvent) :
    renderText (.byte b :: events) =
      hexDigit (b.toNat / 16) :: hexDigit (b.toNat % 16) :: renderText events := rfl

theorem hexPairs_renderText (bytes : List U8) : hexPairs (renderText (bytes.map .byte)) = some bytes := by
  induction bytes with
  | nil => rfl
  | cons b bytes ih =>
    obtain ⟨high, low⟩ := nibbles_lt b
    rw [List.map_cons, renderText_cons_byte,
      hexPairs_cons_cons_of_some (hexVal_hexDigit high) (hexVal_hexDigit low) ih, Nat.div_add_mod,
      BitVec.ofNat_toNat, BitVec.setWidth_eq]

theorem renderText_uppercase (bytes : List U8) :
    ∀ c ∈ renderText (bytes.map .byte), c ∈ "0123456789ABCDEF".toList := by
  induction bytes with
  | nil => exact List.forall_mem_nil _
  | cons b bytes ih =>
    obtain ⟨high, low⟩ := nibbles_lt b
    rw [List.map_cons, renderText_cons_byte]
    exact List.forall_mem_cons.mpr
      ⟨hexDigit_mem high, List.forall_mem_cons.mpr ⟨hexDigit_mem low, ih⟩⟩

/-- Settles O10. -/
theorem printedBytesParseBack : Obligations.PrintedBytesParseBack := by
  unfold Obligations.PrintedBytesParseBack
  intro bytes
  rw [parseHex_eq]
  exact ⟨hexPairs_renderText bytes, renderText_uppercase bytes⟩

end Sys2Proof.Machine

/-! ## Waveforms as trains of pulses: every frame is a mark and a space of 600 us per symbol
(30_encoding.md R47, R48) -/

namespace Sys2Proof.Machine

/-- The mark of a data bit. -/
def bitMark (v : Bool) : Nat := if v then 1200 else 600

/-- The marks of a command's frame: the sync's, then one per data bit; `encodeBytes_eq_pulses` ties
them to `encodeBytes`. -/
def frameMarks (bytes : List U8) : List Nat := 2400 :: (bytes.flatMap byteBits).map bitMark

/-- A train of pulses with the given marks. -/
def pulses (marks : List Nat) : Waveform := marks.flatMap fun m => [⟨.high, m⟩, ⟨.low, 600⟩]

@[simp] theorem pulses_nil : pulses [] = [] := rfl
@[simp] theorem pulses_cons (m : Nat) (marks : List Nat) :
    pulses (m :: marks) = ⟨.high, m⟩ :: ⟨.low, 600⟩ :: pulses marks := rfl

theorem symbolSegments_bitSymbol_eq (v : Bool) :
    symbolSegments (bitSymbol v) = [⟨.high, bitMark v⟩, ⟨.low, 600⟩] := by
  cases v with
  | true => rfl
  | false => rfl

/-- The frame of a command is the train of its marks. -/
theorem encodeBytes_eq_pulses (bytes : List U8) : encodeBytes bytes = pulses (frameMarks bytes) := by
  have appended := encodeBytes_append [] bytes
  rw [List.nil_append, encodeBytes_nil, ← List.flatMap_assoc] at appended
  rw [appended, frameMarks, pulses_cons, pulses, List.flatMap_map]
  simp only [symbolSegments_bitSymbol_eq]
  rfl

theorem length_flatMap_byteBits (bytes : List U8) :
    (bytes.flatMap byteBits).length = 8 * bytes.length := by
  induction bytes with
  | nil => rfl
  | cons b bytes ih =>
    rw [List.flatMap_cons, List.length_append, ih, List.length_cons]
    simp only [byteBits, List.length_cons, List.length_nil]
    omega

@[simp] theorem length_frameMarks (bytes : List U8) :
    (frameMarks bytes).length = 1 + 8 * bytes.length := by
  rw [frameMarks, List.length_cons, List.length_map, length_flatMap_byteBits, Nat.add_comm]

theorem sum_map_bitMark (bits : List Bool) :
    (bits.map bitMark).sum = 600 * bits.length + 600 * bits.count true := by
  induction bits with
  | nil => rfl
  | cons v bits ih => cases v <;> (simp [ih, bitMark]; omega)

theorem length_pulses (marks : List Nat) : (pulses marks).length = 2 * marks.length := by
  induction marks with
  | nil => rfl
  | cons m marks ih => simp [ih]; omega

theorem duration_pulses (marks : List Nat) :
    duration (pulses marks) = marks.sum + 600 * marks.length := by
  induction marks with
  | nil => rfl
  | cons m marks ih => simp [ih]; omega

theorem duration_encodeBytes (bytes : List U8) :
    duration (encodeBytes bytes) = 3000 + 9600 * bytes.length + 600 * onesOf bytes := by
  rw [encodeBytes_eq_pulses, duration_pulses, length_frameMarks, frameMarks, List.sum_cons,
    sum_map_bitMark, length_flatMap_byteBits, onesOf]
  omega

/-- Even places hold the marks, odd places the spaces. -/
theorem getElem?_pulses (marks : List Nat) (k : Nat) : (pulses marks)[k]? =
    (marks[k / 2]?).map fun m => if k % 2 = 0 then ⟨.high, m⟩ else ⟨.low, 600⟩ := by
  induction marks generalizing k with
  | nil => rfl
  | cons m marks ih =>
    match k with
    | 0 => rfl
    | 1 => rfl
    | k + 2 =>
      have half : (k + 2) / 2 = k / 2 + 1 := by omega
      have parity : (k + 2) % 2 = k % 2 := by omega
      rw [half, parity, List.getElem?_cons_succ, ← ih]
      rfl

theorem count_mark_pulses (marks : List Nat) (m : Nat) :
    (pulses marks).count ⟨.high, m⟩ = marks.count m := by
  induction marks with
  | nil => rfl
  | cons m' marks ih => simp [List.count_cons, ih]

theorem lowPeriods_pulses (marks : List Nat) : lowPeriods (pulses marks) = marks := by
  induction marks with
  | nil => rfl
  | cons m marks ih => simpa [lowPeriods] using ih

/-- The marks can be read back from the waveform, so they determine it. -/
theorem lowPeriods_encodeBytes (bytes : List U8) : lowPeriods (encodeBytes bytes) = frameMarks bytes := by
  rw [encodeBytes_eq_pulses, lowPeriods_pulses]

/-- Every mark of a frame is one of three; the sync's stands first and nowhere else. -/
theorem getElem?_frameMarks {bytes : List U8} {k m : Nat} (h : (frameMarks bytes)[k]? = some m) :
    (k = 0 ∧ m = 2400) ∨ (k ≠ 0 ∧ (m = 1200 ∨ m = 600)) := by
  cases k with
  | zero => exact .inl ⟨rfl, (Option.some.inj h).symm⟩
  | succ k =>
    rw [frameMarks, List.getElem?_cons_succ, List.getElem?_map] at h
    obtain ⟨v, -, rfl⟩ := Option.map_eq_some_iff.mp h
    cases v with
    | true => exact .inr ⟨k.succ_ne_zero, .inl rfl⟩
    | false => exact .inr ⟨k.succ_ne_zero, .inr rfl⟩

/-- Settles O14: the shape of a train of pulses whose marks are a frame's. -/
theorem encodeHasTheFrameShape : Obligations.EncodeHasTheFrameShape := by
  unfold Obligations.EncodeHasTheFrameShape
  intro bytes
  refine ⟨?_, duration_encodeBytes bytes, fun k seg place => ?_⟩
  · rw [encodeBytes_eq_pulses, length_pulses, length_frameMarks]
    omega
  · rw [encodeBytes_eq_pulses, getElem?_pulses] at place
    obtain ⟨m, mark, rfl⟩ := Option.map_eq_some_iff.mp place
    have range := getElem?_frameMarks mark
    by_cases even : k % 2 = 0
    · simp only [even, if_true, reduceCtorEq, false_implies, true_implies, true_and]
      refine ⟨?_, ?_, ?_⟩ <;> omega
    · have odd : k ≠ 0 := by omega
      simp [even, odd]

/-! ### What `ENCODE` emits (40_encoder.md R65 to R69) -/

theorem count_map_bitMark (bits : List Bool) :
    (bits.map bitMark).count 2400 = 0 ∧ (bits.map bitMark).count 1200 = bits.count true ∧
      (bits.map bitMark).count 600 = bits.length - bits.count true := by
  induction bits with
  | nil => exact ⟨rfl, rfl, rfl⟩
  | cons v bits ih =>
    obtain ⟨none_sync, ones, zeros⟩ := ih
    have bounded : bits.count true ≤ bits.length := List.count_le_length
    cases v with
    | true => simp [bitMark, none_sync, ones, zeros]
    | false =>
      simp [bitMark, none_sync, ones, zeros]
      omega

/-- Settles O11: the three symbols in a running block, and their counts among the marks of a frame. -/
theorem wireSymbolsExtendTheWaveform : Obligations.WireSymbolsExtendTheWaveform := by
  unfold Obligations.WireSymbolsExtendTheWaveform
  refine ⟨fun s running => ?_, fun bytes => ?_, rfl, rfl, rfl, rfl, rfl, rfl⟩
  · have performed (op : State → State) := whileRunning_running running op
    exact ⟨⟨.done, performed (appendSymbol .sync)⟩, ⟨.done, performed (appendSymbol .bit1)⟩,
      ⟨.done, performed (appendSymbol .bit0)⟩⟩
  · obtain ⟨no_sync, ones, zeros⟩ := count_map_bitMark (bytes.flatMap byteBits)
    rw [length_flatMap_byteBits] at zeros
    rw [encodeBytes_eq_pulses, count_mark_pulses, count_mark_pulses, count_mark_pulses, frameMarks]
    refine ⟨rfl, ?_, ?_, ?_⟩
    · rw [List.count_cons_self, no_sync]
    · rw [List.count_cons_of_ne (by decide), ones, onesOf]
    · rw [List.count_cons_of_ne (by decide), zeros, onesOf]

/-- The operation of a data bit. -/
def bitOp (v : Bool) : Instr := if v then .bit1 else .bit0

theorem exec_bitOp {s : State} (running : s.halted = false) (v : Bool) :
    exec (bitOp v) s = .next (appendSymbol (bitSymbol v) s) := by
  cases v with
  | true => exact whileRunning_running running (appendSymbol .bit1)
  | false => exact whileRunning_running running (appendSymbol .bit0)

/-- Data bits performed one by one append their symbols one by one. -/
theorem performAll_bitOps (bits : List Bool) {s : State} (running : s.halted = false)
    (done : s.result = .done) :
    performAll (bits.map bitOp) s =
      .next (s.extendBuilding (bits.flatMap fun v => symbolSegments (bitSymbol v))) := by
  induction bits generalizing s with
  | nil =>
    rw [List.map_nil, performAll_nil, List.flatMap_nil, State.extendBuilding, List.append_nil]
  | cons v bits ih =>
    have appended := ih (s := appendSymbol (bitSymbol v) s) running rfl
    rw [List.map_cons, performAll_cons (exec_bitOp running v), appended, List.flatMap_cons]
    simp only [appendSymbol, State.extendBuilding, State.ret, List.append_assoc, done]

/-- Settles O13: the sync, then the data bits of all bytes in order. -/
theorem symbolOperationsBuildEncode : Obligations.SymbolOperationsBuildEncode := by
  unfold Obligations.SymbolOperationsBuildEncode
  intro bytes s running empty
  have bits : (bytes.flatMap fun b => (byteBits b).map fun v => if v then Instr.bit1 else .bit0) =
      (bytes.flatMap byteBits).map bitOp := List.map_flatMap.symm
  have sync : exec .sync s = .next (appendSymbol .sync s) := whileRunning_running running _
  have data := performAll_bitOps (bytes.flatMap byteBits) (s := appendSymbol .sync s) running rfl
  have frame := encodeBytes_append [] bytes
  rw [List.nil_append, encodeBytes_nil, ← List.flatMap_assoc] at frame
  rw [bits, performAll_cons sync, data, frame]
  simp only [appendSymbol, State.extendBuilding, State.ret, empty, List.nil_append]

/-! ### Two commands with the same waveform (40_encoder.md R66 f) -/

theorem bitMark_injective : Function.Injective bitMark := by
  intro v w
  cases v <;> cases w <;> simp [bitMark]

/-- A byte is its eight bits. -/
theorem byteBits_injective : Function.Injective byteBits := by
  intro a b h
  simp only [byteBits, List.cons.injEq, and_true] at h
  obtain ⟨h₇, h₆, h₅, h₄, h₃, h₂, h₁, h₀⟩ := h
  refine BitVec.eq_of_getLsbD_eq fun k hk => ?_
  interval_cases k <;> assumption

/-- All bytes have the same number of bits, so the bits of a list of bytes fall apart again. -/
theorem flatMap_byteBits_injective : Function.Injective (List.flatMap byteBits) := by
  intro a
  induction a with
  | nil =>
    intro b h
    cases b with
    | nil => rfl
    | cons b bs => cases h
  | cons x xs ih =>
    intro b h
    cases b with
    | nil => cases h
    | cons y ys =>
      rw [List.flatMap_cons, List.flatMap_cons] at h
      obtain ⟨head, tail⟩ := List.append_inj h rfl
      rw [byteBits_injective head, ih tail]

/-- Settles O15: the waveform gives the marks, the marks the bits and the bits the bytes. -/
theorem encodeIsInjective : Obligations.EncodeIsInjective := by
  unfold Obligations.EncodeIsInjective
  intro a b h
  have marks : frameMarks a = frameMarks b := by
    rw [← lowPeriods_encodeBytes, ← lowPeriods_encodeBytes, h]
  obtain ⟨-, data⟩ := List.cons.inj marks
  exact flatMap_byteBits_injective (List.map_injective_iff.mpr bitMark_injective data)

/-! ### The level at a time (40_encoder.md R74) -/

/-- Settles O22, by recursion on the waveform: every segment before the covering one has ended. -/
theorem levelIsThatOfTheCoveringSegment : Obligations.LevelIsThatOfTheCoveringSegment := by
  unfold Obligations.LevelIsThatOfTheCoveringSegment
  intro w
  induction w with
  | nil => intro e k seg place; cases place
  | cons first w ih =>
    intro e k seg place started running
    cases k with
    | zero =>
      cases place
      rw [List.take_zero, duration_nil, Nat.zero_add] at running
      exact levelAt_cons_lt running w
    | succ k =>
      rw [List.take_succ_cons, duration_cons] at started running
      rw [levelAt_cons_ge (by omega)]
      exact ih (e - first.duration) k seg place (by omega) (by omega)

end Sys2Proof.Machine

/-! ## A frame on the bus (30_encoding.md R46, R49) -/

namespace Sys2Proof.Machine

/-- The edges of a train of pulses on the bus: each mark is a LOW period. -/
def pulseEdges : List Nat → Tick → List EdgeEvent
  | [], _ => []
  | m :: marks, t =>
    ⟨.low, t⟩ :: ⟨.high, t + BitVec.ofNat 32 m⟩ ::
      pulseEdges marks (t + BitVec.ofNat 32 m + BitVec.ofNat 32 600)

theorem busEdges_pulses (marks : List Nat) (t : Tick) : busEdges (pulses marks) t = pulseEdges marks t := by
  induction marks generalizing t with
  | nil => rfl
  | cons m marks ih =>
    rw [pulseEdges, ← ih]
    rfl

theorem length_pulseEdges (marks : List Nat) (t : Tick) :
    (pulseEdges marks t).length = 2 * marks.length := by
  induction marks generalizing t with
  | nil => rfl
  | cons m marks ih => simp [pulseEdges, ih]; omega

/-- The edges alternate, a falling one first. -/
theorem level_pulseEdges (marks : List Nat) (t : Tick) {k : Nat} {e : EdgeEvent}
    (h : (pulseEdges marks t)[k]? = some e) : e.level = if k % 2 = 0 then .low else .high := by
  induction marks generalizing t k with
  | nil => cases h
  | cons m marks ih =>
    match k with
    | 0 => cases h; rfl
    | 1 => cases h; rfl
    | k + 2 =>
      have parity : (k + 2) % 2 = k % 2 := by omega
      rw [parity]
      exact ih _ h

/-- A train in two parts: the second starts when the first has been played. -/
theorem pulseEdges_append (marks more : List Nat) (t : Tick) :
    pulseEdges (marks ++ more) t =
      pulseEdges marks t ++ pulseEdges more (t + BitVec.ofNat 32 (duration (pulses marks))) := by
  induction marks generalizing t with
  | nil => simp [pulseEdges]
  | cons m marks ih =>
    simp only [List.cons_append, pulseEdges, ih, pulses_cons, duration_cons, BitVec.ofNat_add,
      add_assoc]

/-- Settles O16: a frame's marks, their samples, and its edges. -/
theorem frameOnTheBus : Obligations.FrameOnTheBus := by
  unfold Obligations.FrameOnTheBus
  intro bytes t0
  refine ⟨lowPeriods_encodeBytes bytes, ?_, ?_, fun k e place => ?_⟩
  · rw [frameSamples, lowPeriods_encodeBytes, frameMarks, List.map_cons, List.map_map]
    congr 1
    refine List.map_congr_left fun v _ => ?_
    cases v <;> rfl
  · rw [encodeBytes_eq_pulses, busEdges_pulses, length_pulseEdges, length_frameMarks]
  · rw [encodeBytes_eq_pulses, busEdges_pulses] at place
    exact level_pulseEdges _ t0 place

/-- The last falling edge of a train starts its last mark. -/
theorem last_fall_pulseEdges (marks : List Nat) (m : Nat) (t : Tick) :
    ((pulseEdges (marks ++ [m]) t).filter fun e => e.level = .low).getLast? =
      some ⟨.low, t + BitVec.ofNat 32 (duration (pulses marks))⟩ := by
  rw [pulseEdges_append, List.filter_append]
  exact List.getLast?_concat

/-- The last mark of a frame: the sync's for an empty command, and that of bit 0 of the last byte
otherwise. -/
def lastMark (bytes : List U8) : Nat :=
  match bytes.getLast? with
  | none => 2400
  | some b => bitMark (b.getLsbD 0)

theorem frameMarks_eq_concat (bytes : List U8) :
    ∃ marks, frameMarks bytes = marks ++ [lastMark bytes] := by
  obtain rfl | ⟨init, b, rfl⟩ := List.eq_nil_or_concat' bytes
  · exact ⟨[], rfl⟩
  · have bits : byteBits b = [7, 6, 5, 4, 3, 2, 1].map b.getLsbD ++ [b.getLsbD 0] := rfl
    refine ⟨frameMarks init ++ ([7, 6, 5, 4, 3, 2, 1].map b.getLsbD).map bitMark, ?_⟩
    rw [lastMark, List.getLast?_concat]
    simp [frameMarks, bits]

/-- Settles O17: with the last mark and its space counted off, the duration is that of the marks
before the last one. -/
theorem ownFrameLastFall : Obligations.OwnFrameLastFall := by
  unfold Obligations.OwnFrameLastFall
  intro bytes t0 D c
  have last : c = lastMark bytes + 600 := by
    simp only [c, lastMark]
    cases bytes.getLast? with
    | none => rfl
    | some b => simp only [bitMark]; split_ifs <;> rfl
  obtain ⟨marks, shape⟩ := frameMarks_eq_concat bytes
  have counted : D = duration (pulses marks) + c := by
    simp only [D, encodeBytes_eq_pulses, shape, last, duration_pulses, List.sum_append,
      List.length_append, List.sum_singleton, List.length_singleton]
    omega
  have fall : D - c = duration (pulses marks) := by omega
  have guarded (gap : Nat) : D + gap - c = duration (pulses marks) + gap := by omega
  rw [fall, guarded, guarded]
  refine ⟨?_, fun s last_fall => ?_⟩
  · rw [encodeBytes_eq_pulses, busEdges_pulses, shape, last_fall_pulseEdges]
  · obtain ⟨-, boundary, -⟩ := idleTestIsStrict
    obtain ⟨-, not_yet, then_idle⟩ := boundary s
    rw [BitVec.ofNat_add, BitVec.ofNat_add, ← add_assoc, ← add_assoc, ← last_fall]
    exact ⟨not_yet, then_idle⟩

end Sys2Proof.Machine

/-! ## The invariant (10_state.md R28), split into the parts that different agents write -/

namespace Sys2Proof.Machine

/-- The decoder's part of `Inv`, on the values of its three fields; `inv_iff` ties it to `Inv`. -/
structure AccumulatorInv (count : Nat) (partialFrame : Bool) (byte : U8) : Prop where
  countBelowByte : count < 8
  bitsArePartial : count ≠ 0 → partialFrame = true
  lowBitsZero : ∀ i, i < 8 - count → byte.getLsbD i = false

/-- The sequencer's part of `Inv`, on the values of its fields; `inv_iff` ties it to `Inv`. -/
structure SequencerInv (halted : Bool) (st : TxState) (w : Waveform) (e : Nat) (l : PinLevel) :
    Prop where
  idleHoldsNothing : st = .idle → w = [] ∧ e = 0
  idlePinLow : st = .idle → halted = false → l = .low
  inFlight : st ≠ .idle → (∃ bytes, w = encodeBytes bytes) ∧ e < duration w + 20000
  playingBeforeEnd : st = .playing → e < duration w
  playingPin : st = .playing → halted = false → l = levelAt w e
  guardAfterEnd : st = .guard → duration w ≤ e
  guardPinLow : st = .guard → halted = false → l = .low

theorem inv_iff (s : State) : Inv s ↔ s.q.length ≤ 200 ∧
    AccumulatorInv s.currentBitCount s.partialFrame s.currentByte ∧
    SequencerInv s.halted s.txState s.txWave s.txElapsed s.tx := by
  constructor
  · intro h
    exact ⟨(queueWf_iff _).mp h.queueBounded, ⟨h.countBelowByte, h.bitsArePartial, h.lowBitsZero⟩,
      ⟨h.idleHoldsNothing, h.idlePinLow, h.inFlight, h.playingBeforeEnd, h.playingPin,
        h.guardAfterEnd, h.guardPinLow⟩⟩
  · rintro ⟨bounded, acc, seq⟩
    exact ⟨(queueWf_iff _).mpr bounded, acc.countBelowByte, acc.bitsArePartial, acc.lowBitsZero,
      seq.idleHoldsNothing, seq.idlePinLow, seq.inFlight, seq.playingBeforeEnd, seq.playingPin,
      seq.guardAfterEnd, seq.guardPinLow⟩

/-! ### The queue -/

theorem exec_keeps_queueBounded {i : Instr} {s t : State} (h : exec i s = .next t)
    (bounded : s.q.length ≤ 200) : t.q.length ≤ 200 := by
  obtain kept | ⟨-, popped⟩ | ⟨-, emptied⟩ | ⟨-, -, v, pushed⟩ := exec_queue_cases i h
  · rwa [kept]
  · rw [popped, List.length_tail]
    omega
  · rw [emptied, List.length_nil]
    omega
  · rw [pushed]
    exact length_qPush_le bounded v

/-! ### The decoder's accumulator -/

theorem accumulatorInv_clear (p : Bool) : AccumulatorInv 0 p 0 :=
  ⟨by decide, absurd rfl, fun _ _ => BitVec.getLsbD_zero⟩

theorem accumulatorInv_gapCase (s : State) :
    AccumulatorInv (gapCase s).currentBitCount (gapCase s).partialFrame
      (gapCase s).currentByte := by
  rw [gapCase_eq]
  exact accumulatorInv_clear _

section Accumulator

variable {s : State} (inv : AccumulatorInv s.currentBitCount s.partialFrame s.currentByte)
include inv

/-- A bit is stored just above the low bits that are still to come. -/
theorem accumulatorInv_dataCase (v : Bool) : AccumulatorInv (dataCase v s).currentBitCount
    (dataCase v s).partialFrame (dataCase v s).currentByte := by
  by_cases last : s.currentBitCount = 7
  · rw [dataCase_of_last v last]
    exact accumulatorInv_clear _
  · rw [dataCase_of_not_last v last]
    have bounded := inv.countBelowByte
    refine ⟨by simp only; omega, fun _ => rfl, fun i low => ?_⟩
    simp only at low ⊢
    have below : i ≠ 7 - s.currentBitCount := by omega
    rw [getLsbD_assignBit _ (by omega), if_neg below]
    exact inv.lowBitsZero i (by omega)

theorem accumulatorInv_processSample (v : U8) : AccumulatorInv (processSample v s).currentBitCount
    (processSample v s).partialFrame (processSample v s).currentByte := by
  obtain ⟨-, h⟩ | ⟨-, h⟩ | ⟨-, h⟩ := processSample_cases v s
  · rw [h]; exact accumulatorInv_gapCase s
  · rw [h]; exact accumulatorInv_dataCase inv true
  · rw [h]; exact accumulatorInv_dataCase inv false

theorem accumulatorInv_flushFrame : AccumulatorInv (flushFrame s).currentBitCount
    (flushFrame s).partialFrame (flushFrame s).currentByte := by
  by_cases none_held : s.currentBitCount = 0
  · rw [flushFrame_of_no_bits none_held]
    exact ⟨inv.countBelowByte, absurd none_held, inv.lowBitsZero⟩
  · rw [flushFrame_of_bits none_held]
    exact accumulatorInv_clear _

theorem accumulatorInv_whileRunning {op : State → State} {t : State}
    (performed : AccumulatorInv (op s).currentBitCount (op s).partialFrame (op s).currentByte)
    (h : whileRunning s op = .next t) :
    AccumulatorInv t.currentBitCount t.partialFrame t.currentByte := by
  obtain ⟨-, rfl⟩ | ⟨-, rfl⟩ := whileRunning_cases h
  · exact inv
  · exact performed

theorem decoderOp_keeps_accumulatorInv {i : Instr} {t : State} (agent : isDecoderOp i = true)
    (h : exec i s = .next t) : AccumulatorInv t.currentBitCount t.partialFrame t.currentByte := by
  cases i with
  | sGap _ => exact accumulatorInv_whileRunning inv (accumulatorInv_gapCase s) h
  | sOne _ => exact accumulatorInv_whileRunning inv (accumulatorInv_dataCase inv true) h
  | sZero _ => exact accumulatorInv_whileRunning inv (accumulatorInv_dataCase inv false) h
  | decSample =>
    refine accumulatorInv_whileRunning inv ?_ h
    obtain ⟨-, performed⟩ | ⟨v, rest, -, performed⟩ := decodeNext_cases s
    · rw [performed]; exact inv
    · rw [performed]; exact accumulatorInv_processSample (s := s.withQueue rest) inv v
  | decFlush now =>
    cases enabled : decFlushEnabled now s with
    | true =>
      rw [exec_decFlush_of_enabled enabled] at h
      cases h
      exact accumulatorInv_flushFrame inv
    | false =>
      rw [exec_decFlush_of_disabled enabled] at h
      cases h
      exact inv
  | _ => cases agent

end Accumulator

/-! ### The sequencer -/

theorem sequencerInv_idle (halted : Bool) : SequencerInv halted .idle [] 0 .low :=
  ⟨fun _ => ⟨rfl, rfl⟩, fun _ _ => rfl, absurd rfl, nofun, nofun, nofun, nofun⟩

theorem sequencerInv_playing (halted : Bool) {w : Waveform} {e : Nat}
    (frame : ∃ bytes, w = encodeBytes bytes) (before : e < duration w) :
    SequencerInv halted .playing w e (levelAt w e) :=
  ⟨nofun, nofun, fun _ => ⟨frame, by omega⟩, fun _ => before, fun _ _ => rfl, nofun, nofun⟩

theorem sequencerInv_guard (halted : Bool) {w : Waveform} {e : Nat}
    (frame : ∃ bytes, w = encodeBytes bytes) (ended : duration w ≤ e)
    (guarded : e < duration w + 20000) : SequencerInv halted .guard w e .low :=
  ⟨nofun, nofun, fun _ => ⟨frame, guarded⟩, nofun, nofun, fun _ => ended, fun _ _ => rfl⟩

/-- In a halted block nothing is said of the pin. -/
theorem SequencerInv.halt {halted : Bool} {st : TxState} {w : Waveform} {e : Nat} {l : PinLevel}
    (inv : SequencerInv halted st w e l) (l' : PinLevel) : SequencerInv true st w e l' :=
  ⟨inv.idleHoldsNothing, nofun, inv.inFlight, inv.playingBeforeEnd, nofun, inv.guardAfterEnd, nofun⟩

/-- A waveform starts HIGH, as the sync's mark does. -/
theorem levelAt_encodeBytes_zero (bytes : List U8) : levelAt (encodeBytes bytes) 0 = .high := by
  rw [encodeBytes_eq_pulses]
  rfl

theorem duration_encodeBytes_pos (bytes : List U8) : 0 < duration (encodeBytes bytes) := by
  rw [duration_encodeBytes]
  omega

section Sequencer

variable {s : State} (inv : SequencerInv s.halted s.txState s.txWave s.txElapsed s.tx)
include inv

theorem sequencerInv_sendCommand (str : List Char) (now : Tick) :
    SequencerInv (sendCommand str now s).halted (sendCommand str now s).txState
      (sendCommand str now s).txWave (sendCommand str now s).txElapsed (sendCommand str now s).tx := by
  obtain ⟨-, h⟩ | ⟨_, -, -, h⟩ | ⟨bytes, -, -, -, h⟩ := sendCommand_cases str now s
  · rw [h]; exact inv
  · rw [h]; exact inv
  · rw [h, startWaveform_tx, ← levelAt_encodeBytes_zero bytes]
    exact sequencerInv_playing _ ⟨bytes, rfl⟩ (duration_encodeBytes_pos bytes)

/-- Of the six phases of a microsecond the invariant excludes the one that has played past its guard. -/
theorem sequencerInv_advance (running : s.halted = false) :
    SequencerInv (advanceMicrosecond s).halted (advanceMicrosecond s).txState
      (advanceMicrosecond s).txWave (advanceMicrosecond s).txElapsed (advanceMicrosecond s).tx := by
  obtain ⟨idle, -⟩ | ⟨playing, before, -⟩ | ⟨playing, ended, guarded, -⟩ | ⟨playing, past, -⟩ |
    ⟨guard, guarded, -⟩ | ⟨guard, past, -⟩ := advanceMicrosecond_cases s
  · rw [advance_of_idle idle]
    exact inv
  · obtain ⟨frame, -⟩ := inv.inFlight (playing ▸ TxState.noConfusion)
    rw [advance_of_playing playing before, playing]
    exact sequencerInv_playing _ frame before
  · obtain ⟨frame, -⟩ := inv.inFlight (playing ▸ TxState.noConfusion)
    rw [advance_to_guard playing ended guarded]
    exact sequencerInv_guard _ frame ended guarded
  · have before := inv.playingBeforeEnd playing
    rw [params_tGuard] at past
    omega
  · obtain ⟨frame, -⟩ := inv.inFlight (guard ▸ TxState.noConfusion)
    have ended := inv.guardAfterEnd guard
    rw [advance_of_guard guard guarded, guard, inv.guardPinLow guard running]
    exact sequencerInv_guard _ frame (Nat.le_succ_of_le ended) guarded
  · rw [advance_to_idle guard past, inv.guardPinLow guard running]
    exact sequencerInv_idle _

theorem transmitOp_keeps_sequencerInv {i : Instr} {t : State} (agent : isTransmitOp i = true)
    (h : exec i s = .next t) :
    SequencerInv t.halted t.txState t.txWave t.txElapsed t.tx := by
  cases i with
  | send str now =>
    rw [exec_send] at h
    obtain ⟨-, rfl⟩ | ⟨-, rfl⟩ := whileRunning_cases h
    · exact inv
    · exact sequencerInv_sendCommand inv str now
  | txAdvance =>
    cases running : s.halted with
    | true =>
      rw [exec_txAdvance_of_halted running] at h
      cases h
      rw [running] at inv
      simpa [running] using inv.halt (Config.freePinLevel s.freeCount)
    | false =>
      rw [exec_txAdvance_running running] at h
      cases h
      exact sequencerInv_advance inv running
  | _ => cases agent

end Sequencer

/-! ### The whole invariant -/

theorem inv_reset : Inv State.reset := by
  rw [inv_iff]
  exact ⟨Nat.zero_le _, accumulatorInv_clear false, sequencerInv_idle false⟩

/-- Settles O47. -/
theorem invariantHoldsAtReset : Obligations.InvariantHoldsAtReset := by
  unfold Obligations.InvariantHoldsAtReset
  exact ⟨inv_reset, rfl, rfl, rfl, rfl, rfl, rfl, rfl, rfl, rfl, rfl, rfl, rfl⟩

/-- Each agent keeps its own part of the invariant, and its frame keeps the other parts. -/
theorem exec_keeps_inv {i : Instr} {s t : State} (inv : Inv s) (h : exec i s = .next t) : Inv t := by
  rw [inv_iff] at inv ⊢
  obtain ⟨bounded, acc, seq⟩ := inv
  refine ⟨exec_keeps_queueBounded h bounded, ?_⟩
  obtain ⟨-, _, _, _, _, rfl⟩ | ⟨agent, _, _, _, _, _, _, rfl, -, -⟩ |
    ⟨agent, _, _, _, _, _, _, _, rfl, -, -⟩ | ⟨-, _, _, rfl⟩ | ⟨-, l, _, _, rfl⟩ | ⟨-, rfl⟩ :=
    exec_frame_cases h
  · exact ⟨acc, seq⟩
  · exact ⟨decoderOp_keeps_accumulatorInv acc agent h, seq⟩
  · exact ⟨acc, transmitOp_keeps_sequencerInv seq agent h⟩
  · exact ⟨acc, seq⟩
  · exact ⟨acc, seq.halt l⟩
  · exact ⟨accumulatorInv_clear false, sequencerInv_idle false⟩

/-- Settles O48: a step waits, or is an operation on the state with one input less lined up, which no
clause of the invariant reads. -/
theorem stepKeepsTheInvariant : Obligations.StepKeepsTheInvariant := by
  unfold Obligations.StepKeepsTheInvariant
  intro s t inv stepped
  obtain ⟨-, rfl⟩ | ⟨_, rest, i, -, -, performed⟩ := step_cases stepped
  · exact inv
  · have taken : Inv (s.withInbox rest) := (inv_iff _).mpr ((inv_iff s).mp inv)
    exact exec_keeps_inv taken performed

end Sys2Proof.Machine

/-! ## The transmit sequencer over single operations (10_state.md R17, 40_encoder.md R75) -/

namespace Sys2Proof.Machine

/-- A command either starts its waveform on an idle sequencer or is answered, not with OK, and leaves
the block as it was. -/
theorem exec_send_cases {str : List Char} {now : Tick} {s t : State}
    (h : exec (.send str now) s = .next t) :
    (s.txState = .idle ∧ ∃ bytes, t = (s.startWaveform (encodeBytes bytes)).ret .done) ∨
    (∃ es r, t = { s with out := s.out ++ es, result := r } ∧ es.count (.sendResult .ok) = 0) := by
  rw [exec_send] at h
  obtain ⟨-, rfl⟩ | ⟨-, rfl⟩ := whileRunning_cases h
  · exact .inr ⟨[], .noStep, by rw [List.append_nil]; rfl, rfl⟩
  · obtain ⟨-, answer⟩ | ⟨_, -, -, answer⟩ | ⟨bytes, -, free, -, answer⟩ :=
      sendCommand_cases str now s
    · exact .inr ⟨[.sendResult .malformedCommand], .done, by rw [answer]; rfl, rfl⟩
    · exact .inr ⟨[.sendResult .busBusy], .done, by rw [answer]; rfl, rfl⟩
    · refine .inl ⟨?_, bytes, by rw [answer]⟩
      simpa [txBusy] using free

/-- What a microsecond does to the sequencer and the stream, from a state with the invariant. -/
theorem exec_txAdvance_cases {s t : State} (inv : Inv s) (h : exec .txAdvance s = .next t) :
    (t.txState = s.txState ∧ t.out = s.out) ∨
    (s.txState = .playing ∧ t.txState = .guard ∧ t.out = s.out) ∨
    (s.txState = .guard ∧ t.txState = .idle ∧ t.out = s.out ++ [.sendResult .ok]) := by
  cases running : s.halted with
  | true =>
    rw [exec_txAdvance_of_halted running] at h
    cases h
    exact .inl ⟨rfl, rfl⟩
  | false =>
    rw [exec_txAdvance_running running] at h
    cases h
    obtain ⟨idle, -⟩ | ⟨playing, before, -⟩ | ⟨playing, ended, guarded, -⟩ | ⟨playing, past, -⟩ |
      ⟨guard, guarded, -⟩ | ⟨guard, past, -⟩ := advanceMicrosecond_cases s
    · rw [advance_of_idle idle]
      exact .inl ⟨rfl, rfl⟩
    · rw [advance_of_playing playing before]
      exact .inl ⟨rfl, rfl⟩
    · rw [advance_to_guard playing ended guarded]
      exact .inr (.inl ⟨playing, rfl, rfl⟩)
    · have before := inv.playingBeforeEnd playing
      rw [params_tGuard] at past
      omega
    · rw [advance_of_guard guard guarded]
      exact .inl ⟨rfl, rfl⟩
    · rw [advance_to_idle guard past]
      exact .inr (.inr ⟨guard, rfl, rfl⟩)

/-- Settles O25: the two operations of the transmit path, and no other operation writes `tx_state`. -/
theorem sequencerTransitions : Obligations.SequencerTransitions := by
  unfold Obligations.SequencerTransitions
  intro i s t inv not_reset h
  cases agent : isTransmitOp i with
  | false =>
    obtain ⟨-, -, -, transmit, -⟩ := eachFieldHasOneWriter i s t not_reset h
    exact .inl (transmit agent).1
  | true =>
    cases i with
    | send str now =>
      obtain ⟨idle, _, rfl⟩ | ⟨_, _, rfl, -⟩ := exec_send_cases h
      · exact .inr (.inl ⟨idle, rfl, str, now, rfl⟩)
      · exact .inl rfl
    | txAdvance =>
      obtain ⟨same, -⟩ | ⟨playing, guard, -⟩ | ⟨guard, idle, -⟩ := exec_txAdvance_cases inv h
      · exact .inl same
      · exact .inr (.inr (.inl ⟨playing, guard, rfl⟩))
      · exact .inr (.inr (.inr ⟨guard, idle, rfl⟩))
    | _ => cases agent

/-- Only the passing microsecond can emit an OK. -/
theorem exec_keeps_oks {i : Instr} {s t : State} (not_reset : i ≠ .reset)
    (not_advance : i ≠ .txAdvance) (h : exec i s = .next t) :
    t.out.count (.sendResult .ok) = s.out.count (.sendResult .ok) := by
  obtain ⟨-, _, _, _, _, rfl⟩ | ⟨-, _, _, _, _, es, _, rfl, -, own⟩ | ⟨agent, -⟩ |
    ⟨-, _, _, rfl⟩ | ⟨-, _, _, _, rfl⟩ | ⟨rfl, -⟩ := exec_frame_cases h
  · rfl
  · have none_ok : es.count (.sendResult .ok) = 0 :=
      List.count_eq_zero.mpr fun mem => Bool.false_ne_true (own _ mem)
    rw [List.count_append, none_ok, Nat.add_zero]
  · cases i with
    | send str now =>
      obtain ⟨-, _, rfl⟩ | ⟨es, _, rfl, none_ok⟩ := exec_send_cases h
      · rfl
      · rw [List.count_append, none_ok, Nat.add_zero]
    | txAdvance => exact absurd rfl not_advance
    | _ => cases agent
  · rfl
  · rfl
  · exact absurd rfl not_reset

/-- Settles O26: the microsecond that ends the guard emits the OK; by O25 no other operation makes the
sequencer return. -/
theorem okExactlyWhenTheSequencerReturns : Obligations.OkExactlyWhenTheSequencerReturns := by
  unfold Obligations.OkExactlyWhenTheSequencerReturns
  intro i s t inv not_reset h
  by_cases advance : i = .txAdvance
  · subst advance
    obtain ⟨same, out⟩ | ⟨playing, guard, out⟩ | ⟨guard, idle, out⟩ := exec_txAdvance_cases inv h
    · rw [out, same, if_neg fun returns => returns.1 returns.2, Nat.add_zero]
    · simp [out, guard]
    · simp [out, guard, idle]
  · have no_return : ¬ (s.txState ≠ .idle ∧ t.txState = .idle) := by
      rintro ⟨busy, idle⟩
      obtain same | ⟨idle_before, -⟩ | ⟨-, -, rfl⟩ | ⟨-, -, rfl⟩ :=
        sequencerTransitions i s t inv not_reset h
      · exact busy (same ▸ idle)
      · exact busy idle_before
      · exact advance rfl
      · exact advance rfl
    rw [if_neg no_return, Nat.add_zero]
    exact exec_keeps_oks not_reset advance h

end Sys2Proof.Machine

/-! ## A waveform from its acceptance to the end of its guard (40_encoder.md R73, R75, R77) -/

namespace Sys2Proof.Machine

/-- The waveform `w` has been in flight for `e` microseconds in a running block: it plays, or it has
ended and the guard runs. -/
structure InFlight (w : Waveform) (e : Nat) (s : State) : Prop where
  running : s.halted = false
  wave : s.txWave = w
  elapsed : s.txElapsed = e
  playing : e < duration w → s.txState = .playing ∧ s.tx = levelAt w e
  guarding : duration w ≤ e → s.txState = .guard ∧ s.tx = .low

section InFlight

variable {w : Waveform} {e : Nat} {s t : State}

theorem InFlight.not_idle (flight : InFlight w e s) : s.txState ≠ .idle := by
  rcases Nat.lt_or_ge e (duration w) with before | ended
  · rw [(flight.playing before).1]; exact TxState.noConfusion
  · rw [(flight.guarding ended).1]; exact TxState.noConfusion

/-- One microsecond before the end of the guard. -/
theorem InFlight.advance (flight : InFlight w e s) (guarded : e + 1 < duration w + 20000) :
    ∃ t, exec .txAdvance s = .next t ∧ InFlight w (e + 1) t ∧ t.out = s.out := by
  obtain ⟨running, rfl, rfl, playing, guarding⟩ := flight
  rw [exec_txAdvance_running running]
  rcases Nat.lt_or_ge s.txElapsed (duration s.txWave) with before | ended
  · obtain ⟨playing, -⟩ := playing before
    rcases Nat.lt_or_ge (s.txElapsed + 1) (duration s.txWave) with still | ends
    · rw [advance_of_playing playing still]
      exact ⟨_, rfl, ⟨running, rfl, rfl, fun _ => ⟨playing, rfl⟩, fun ended => by omega⟩, rfl⟩
    · rw [advance_to_guard playing ends guarded]
      exact ⟨_, rfl, ⟨running, rfl, rfl, fun before => by omega, fun _ => ⟨rfl, rfl⟩⟩, rfl⟩
  · obtain ⟨guard, low⟩ := guarding ended
    rw [advance_of_guard guard guarded]
    exact ⟨_, rfl, ⟨running, rfl, rfl, fun before => by omega, fun _ => ⟨guard, low⟩⟩, rfl⟩

/-- The last microsecond of the guard. -/
theorem InFlight.finish (flight : InFlight w e s) (last : e + 1 = duration w + 20000) :
    ∃ t, exec .txAdvance s = .next t ∧ t.txState = .idle ∧ t.txWave = [] ∧ t.txElapsed = 0 ∧
      t.tx = .low ∧ t.out = s.out ++ [.sendResult .ok] := by
  obtain ⟨running, rfl, rfl, -, guarding⟩ := flight
  obtain ⟨guard, low⟩ := guarding (by omega)
  rw [exec_txAdvance_running running, advance_to_idle guard last.ge]
  exact ⟨_, rfl, rfl, rfl, rfl, low, rfl⟩

/-- Nothing but time and the two operations that end the block touches a waveform in flight. -/
theorem InFlight.other (flight : InFlight w e s) {i : Instr} (survives : endsBlock i = false)
    (not_advance : i ≠ .txAdvance) (h : exec i s = .next t) : InFlight w e t := by
  have not_reset : i ≠ .reset := by rintro rfl; cases survives
  have not_fail : i ≠ .hwFail := by rintro rfl; cases survives
  obtain ⟨-, -, -, transmit, halted, -, -⟩ := eachFieldHasOneWriter i s t not_reset h
  have running := (halted not_fail).trans flight.running
  cases agent : isTransmitOp i with
  | false =>
    obtain ⟨st, wave, elapsed, pin⟩ := transmit agent
    refine ⟨running, wave.trans flight.wave, elapsed.trans flight.elapsed, ?_, ?_⟩
    · rw [st, pin not_fail]; exact flight.playing
    · rw [st, pin not_fail]; exact flight.guarding
  | true =>
    cases i with
    | send str now =>
      obtain ⟨idle, -⟩ | ⟨_, _, rfl, -⟩ := exec_send_cases h
      · exact absurd idle flight.not_idle
      · exact ⟨running, flight.wave, flight.elapsed, flight.playing, flight.guarding⟩
    | txAdvance => exact absurd rfl not_advance
    | _ => cases agent

end InFlight

theorem microseconds_cons_advance (ops : List Instr) :
    microseconds (.txAdvance :: ops) = microseconds ops + 1 := List.count_cons_self

theorem microseconds_cons_other {i : Instr} (not_advance : i ≠ .txAdvance) (ops : List Instr) :
    microseconds (i :: ops) = microseconds ops := List.count_cons_of_ne not_advance

/-- Any operations short of the end of the guard: the waveform is in flight for as long as time has
passed, and no OK is emitted. -/
theorem InFlight.run {w : Waveform} {e : Nat} {s : State} (flight : InFlight w e s)
    {ops : List Instr} (survives : ∀ i ∈ ops, endsBlock i = false)
    (guarded : e + microseconds ops < duration w + 20000) :
    ∃ t, performAll ops s = .next t ∧ InFlight w (e + microseconds ops) t ∧
      t.out.count (.sendResult .ok) = s.out.count (.sendResult .ok) := by
  induction ops generalizing e s with
  | nil => exact ⟨s, rfl, flight, rfl⟩
  | cons i ops ih =>
    obtain ⟨first, others⟩ := List.forall_mem_cons.mp survives
    by_cases advance : i = .txAdvance
    · subst advance
      rw [microseconds_cons_advance] at guarded ⊢
      obtain ⟨u, performed, flies, out⟩ := flight.advance (by omega)
      obtain ⟨t, run, arrives, oks⟩ := ih flies others (by omega)
      rw [performAll_cons performed, run, ← Nat.succ_add_eq_add_succ]
      exact ⟨t, rfl, arrives, by rw [oks, out]⟩
    · rw [microseconds_cons_other advance] at guarded ⊢
      obtain ⟨u, performed⟩ := everyOperationAnswersNext i s
      obtain ⟨t, run, arrives, oks⟩ := ih (flight.other first advance performed) others guarded
      have not_reset : i ≠ .reset := by rintro rfl; cases first
      rw [performAll_cons performed, run]
      exact ⟨t, rfl, arrives, oks.trans (exec_keeps_oks not_reset advance performed)⟩

/-- Acceptance puts the waveform in flight, with nothing emitted. -/
theorem inFlight_of_accepted {str : List Char} {now : Tick} {s : State} {bytes : List U8}
    (running : s.halted = false) (parses : parseHex str = some bytes) (free : s.txState = .idle)
    (idle : isIdle now s = true) :
    ∃ t, exec (.send str now) s = .next t ∧ InFlight (encodeBytes bytes) 0 t ∧ t.out = s.out := by
  refine ⟨_, exec_send_of_accepted running parses free idle, ⟨running, rfl, rfl, fun _ => ?_,
    fun ended => ?_⟩, rfl⟩
  · exact ⟨rfl, (levelAt_encodeBytes_zero bytes).symm⟩
  · exact absurd (duration_encodeBytes_pos bytes) ended.not_gt

/-- Settles O23: acceptance, the run up to the end of the guard, and the microsecond that ends it. -/
theorem acceptedWaveformRunsToCompletion : Obligations.AcceptedWaveformRunsToCompletion := by
  unfold Obligations.AcceptedWaveformRunsToCompletion
  intro str now bytes s ops running free parses idle survives
  obtain ⟨u, accepted, flight, out⟩ := inFlight_of_accepted running parses free idle
  rw [performAll_cons accepted, performAll_cons accepted, ← out]
  constructor
  · intro guarded
    obtain ⟨t, run, arrives, oks⟩ := flight.run survives (by omega)
    rw [Nat.zero_add] at arrives
    exact ⟨t, run, arrives.wave, arrives.elapsed, arrives.playing, arrives.guarding, oks⟩
  · intro last
    obtain ⟨v, run, arrives, oks⟩ := flight.run survives (by omega)
    obtain ⟨t, finished, st, wave, elapsed, pin, ok⟩ := arrives.finish (by omega)
    refine ⟨t, ?_, st, wave, elapsed, pin, ?_⟩
    · rw [performAll_append run, performAll_cons finished, performAll_nil]
    · rw [ok, List.count_append, oks, List.count_singleton_self]

/-- In an orderly environment time passes by `TX_ADVANCE` alone, and nothing ends the block. -/
theorem orderly_time {T e T' : Nat} {ops : List Instr} (orderly : Orderly T e ops T') :
    T' = T + microseconds ops ∧ ∀ i ∈ ops, endsBlock i = false := by
  induction orderly with
  | nil => exact ⟨rfl, List.forall_mem_nil _⟩
  | advance _ ih =>
    obtain ⟨time, survives⟩ := ih
    rw [microseconds_cons_advance, time]
    exact ⟨by omega, List.forall_mem_cons.mpr ⟨rfl, survives⟩⟩
  | send _ ih | isIdle _ ih | decSample _ ih | decFlush _ ih | edge _ _ _ ih =>
    obtain ⟨time, survives⟩ := ih
    rw [microseconds_cons_other Instr.noConfusion]
    exact ⟨time, List.forall_mem_cons.mpr ⟨rfl, survives⟩⟩

/-- Settles O24: until the guard ends the waveform is in flight, so the sequencer is busy. -/
theorem sendIsBusyUntilTheGuardEnds : Obligations.SendIsBusyUntilTheGuardEnds := by
  unfold Obligations.SendIsBusyUntilTheGuardEnds
  intro str str' bytes bytes' s T0 e T ops running free parses parses' idle orderly early
  obtain ⟨time, survives⟩ := orderly_time orderly
  obtain ⟨u, accepted, flight, -⟩ := inFlight_of_accepted running parses free idle
  obtain ⟨t, run, arrives, -⟩ := flight.run survives (by omega)
  refine ⟨t, by rw [performAll_cons accepted, run], .done, ?_⟩
  exact exec_send_of_busy arrives.running parses' (.inl ((txBusy_iff t).mpr arrives.not_idle))

end Sys2Proof.Machine

/-! ## The paths do not interfere (20_memory.md R41, 40_encoder.md R79)

Each path is a relation between states; an operation of the other path does not leave it, and every
other operation takes related states to related states. -/

namespace Sys2Proof.Machine

/-- The induction over a list of operations, once for both paths. -/
theorem performAll_filter_related {R : State → State → Prop} {foreign : Instr → Bool}
    (skipped : ∀ i s s' t, foreign i = true → R s s' → exec i s = .next t → R t s')
    (performed : ∀ i s s', foreign i = false → R s s' →
      ∃ t t', exec i s = .next t ∧ exec i s' = .next t' ∧ R t t') :
    ∀ (ops : List Instr) (s s' : State), R s s' → ∃ t t', performAll ops s = .next t ∧
      performAll (ops.filter fun i => !foreign i) s' = .next t' ∧ R t t' := by
  intro ops
  induction ops with
  | nil => exact fun s s' related => ⟨s, s', rfl, rfl, related⟩
  | cons i ops ih =>
    intro s s' related
    cases agent : foreign i with
    | true =>
      obtain ⟨u, step⟩ := everyOperationAnswersNext i s
      rw [performAll_cons step, List.filter_cons_of_neg (by simp [agent])]
      exact ih u s' (skipped i s s' u agent related step)
    | false =>
      obtain ⟨u, u', step, step', related'⟩ := performed i s s' agent related
      rw [performAll_cons step, List.filter_cons_of_pos (by simp [agent]), performAll_cons step']
      exact ih u u' related'

theorem whileRunning_related {R : State → State → Prop} {s s' : State} {op : State → State}
    (same : s.halted = s'.halted) (waits : R (s.ret .noStep) (s'.ret .noStep))
    (performed : R (op s) (op s')) :
    ∃ t t', whileRunning s op = .next t ∧ whileRunning s' op = .next t' ∧ R t t' := by
  cases running : s.halted with
  | true =>
    exact ⟨_, _, whileRunning_halted running op, whileRunning_halted (same ▸ running) op, waits⟩
  | false =>
    exact ⟨_, _, whileRunning_running running op, whileRunning_running (same ▸ running) op, performed⟩

theorem debounced_related {R : State → State → Prop} {s s' : State} {t : Tick} {case : State → State}
    (same : s.lastInterruptTick = s'.lastInterruptTick)
    (dropped : R (s.ret (.sample none)) (s'.ret (.sample none)))
    (accepted : R (case (s.acceptEdge t)) (case (s'.acceptEdge t))) :
    R (debounced t case s) (debounced t case s') := by
  rcases Nat.lt_or_ge (tdiff t s.lastInterruptTick).toNat 100 with close | late
  · rwa [debounced_of_close close, debounced_of_close (same ▸ close)]
  · rwa [debounced_of_late late, debounced_of_late (same ▸ late)]

/-! ### The receive path -/

theorem filter_decoderEvents_of_own {es : List OutEvent} (own : ∀ e ∈ es, isDecoderEvent e = false) :
    es.filter isDecoderEvent = [] :=
  List.filter_eq_nil_iff.mpr fun e mem => ne_true_of_eq_false (own e mem)

/-- The transmit path writes nothing the receive path reads, and its events are no decoder events. -/
theorem transmitOp_keeps_sameReceive {i : Instr} {s s' t : State} (agent : isTransmitOp i = true)
    (agree : sameReceive s s') (h : exec i s = .next t) : sameReceive t s' := by
  obtain ⟨u, step, _, _, _, _, _, es, _, rfl, -, own⟩ := transmitOp_frame agent s
  rw [step] at h
  cases h
  obtain ⟨lit, lfe, byte, count, part, q, halted, out⟩ := agree
  refine ⟨lit, lfe, byte, count, part, q, halted, ?_⟩
  rw [List.filter_append, filter_decoderEvents_of_own own, List.append_nil, out]

/-- Two states agree on the decoder's three fields and on the events it has emitted. -/
def sameDecoder (s t : State) : Prop :=
  s.currentByte = t.currentByte ∧ s.currentBitCount = t.currentBitCount ∧
    s.partialFrame = t.partialFrame ∧ s.out.filter isDecoderEvent = t.out.filter isDecoderEvent

section Decoder

variable {s s' : State} (agree : sameDecoder s s')
include agree

theorem sameDecoder_gapCase : sameDecoder (gapCase s) (gapCase s') := by
  obtain ⟨byte, count, part, out⟩ := agree
  rw [gapCase_eq, gapCase_eq]
  refine ⟨rfl, rfl, part, ?_⟩
  simp only [List.filter_append, out, part, count]

theorem sameDecoder_dataCase (v : Bool) : sameDecoder (dataCase v s) (dataCase v s') := by
  obtain ⟨byte, count, part, out⟩ := agree
  by_cases last : s.currentBitCount = 7
  · rw [dataCase_of_last v last, dataCase_of_last v (count ▸ last)]
    refine ⟨rfl, rfl, rfl, ?_⟩
    simp only [List.filter_append, out, byte, count]
  · rw [dataCase_of_not_last v last, dataCase_of_not_last v (count ▸ last)]
    refine ⟨?_, ?_, rfl, out⟩
    · simp only [byte, count]
    · simp only [count]

theorem sameDecoder_processSample (v : U8) : sameDecoder (processSample v s) (processSample v s') := by
  unfold processSample
  cases classify v with
  | gap => exact sameDecoder_gapCase agree
  | one => exact sameDecoder_dataCase agree true
  | zero => exact sameDecoder_dataCase agree false

theorem sameDecoder_flushFrame : sameDecoder (flushFrame s) (flushFrame s') := by
  obtain ⟨byte, count, part, out⟩ := agree
  by_cases none_held : s.currentBitCount = 0
  · rw [flushFrame_of_no_bits none_held, flushFrame_of_no_bits (count ▸ none_held)]
    refine ⟨byte, count, rfl, ?_⟩
    simp only [List.filter_append, out]
  · rw [flushFrame_of_bits none_held, flushFrame_of_bits (count ▸ none_held)]
    refine ⟨rfl, rfl, rfl, ?_⟩
    simp only [List.filter_append, out, count]

end Decoder

/-- What the receive path has beside the decoder: the two ticks, the queue and `halted`. -/
def sameLine (s t : State) : Prop :=
  s.lastInterruptTick = t.lastInterruptTick ∧ s.lastFallingEdgeTick = t.lastFallingEdgeTick ∧
    s.q = t.q ∧ s.halted = t.halted

theorem sameReceive_iff (s t : State) : sameReceive s t ↔ sameLine s t ∧ sameDecoder s t := by
  rw [sameReceive, sameLine, sameDecoder]
  tauto

theorem gapCase_keeps_line (s : State) : sameLine (gapCase s) s := by
  rw [gapCase_eq]
  exact ⟨rfl, rfl, rfl, rfl⟩

theorem dataCase_keeps_line (v : Bool) (s : State) : sameLine (dataCase v s) s := by
  rw [dataCase_eq]
  split
  · exact ⟨rfl, rfl, rfl, rfl⟩
  · exact ⟨rfl, rfl, rfl, rfl⟩

theorem processSample_keeps_line (v : U8) (s : State) : sameLine (processSample v s) s := by
  obtain ⟨-, h⟩ | ⟨-, h⟩ | ⟨-, h⟩ := processSample_cases v s
  · rw [h]; exact gapCase_keeps_line s
  · rw [h]; exact dataCase_keeps_line true s
  · rw [h]; exact dataCase_keeps_line false s

theorem flushFrame_keeps_line (s : State) : sameLine (flushFrame s) s := by
  obtain ⟨-, h⟩ | ⟨-, h⟩ := flushFrame_cases s
  · rw [h]; exact ⟨rfl, rfl, rfl, rfl⟩
  · rw [h]; exact ⟨rfl, rfl, rfl, rfl⟩

/-- A case of the decoder that leaves the rest of the receive path alone need only agree on its own. -/
theorem sameReceive_of_decoder {s s' : State} {op : State → State} (agree : sameReceive s s')
    (line : ∀ s, sameLine (op s) s) (decoder : sameDecoder s s' → sameDecoder (op s) (op s')) :
    sameReceive (op s) (op s') := by
  rw [sameReceive_iff] at agree ⊢
  obtain ⟨⟨lit, lfe, q, halted⟩, own⟩ := agree
  obtain ⟨lit₁, lfe₁, q₁, halted₁⟩ := line s
  obtain ⟨lit₂, lfe₂, q₂, halted₂⟩ := line s'
  exact ⟨⟨by rw [lit₁, lit₂, lit], by rw [lfe₁, lfe₂, lfe], by rw [q₁, q₂, q],
    by rw [halted₁, halted₂, halted]⟩, decoder own⟩

section Receive

variable {s s' : State} (agree : sameReceive s s')
include agree

theorem sameReceive_withQueue (q : List U8) : sameReceive (s.withQueue q) (s'.withQueue q) := by
  obtain ⟨lit, lfe, byte, count, part, -, halted, out⟩ := agree
  exact ⟨lit, lfe, byte, count, part, rfl, halted, out⟩

theorem sameReceive_gapCase : sameReceive (gapCase s) (gapCase s') :=
  sameReceive_of_decoder agree gapCase_keeps_line sameDecoder_gapCase

theorem sameReceive_dataCase (v : Bool) : sameReceive (dataCase v s) (dataCase v s') :=
  sameReceive_of_decoder agree (dataCase_keeps_line v) (sameDecoder_dataCase · v)

theorem sameReceive_processSample (v : U8) : sameReceive (processSample v s) (processSample v s') :=
  sameReceive_of_decoder agree (processSample_keeps_line v) (sameDecoder_processSample · v)

theorem sameReceive_flushFrame : sameReceive (flushFrame s) (flushFrame s') :=
  sameReceive_of_decoder agree flushFrame_keeps_line sameDecoder_flushFrame

theorem sameReceive_decodeNext : sameReceive (decodeNext s) (decodeNext s') := by
  have ⟨_, _, _, _, _, q, _, _⟩ := agree
  cases head : s.q with
  | nil =>
    rw [decodeNext_of_nil head, decodeNext_of_nil (q ▸ head)]
    exact agree
  | cons v rest =>
    rw [decodeNext_of_cons head, decodeNext_of_cons (q ▸ head)]
    exact sameReceive_processSample (sameReceive_withQueue agree rest) v

theorem decFlushEnabled_of_sameReceive (now : Tick) : decFlushEnabled now s = decFlushEnabled now s' := by
  obtain ⟨-, lfe, -, -, part, q, halted, -⟩ := agree
  rw [decFlushEnabled, decFlushEnabled, isIdle_congr lfe, part, q, halted]

theorem sameReceive_fall (t : Tick) :
    sameReceive (debounced t (fallCase t) s) (debounced t (fallCase t) s') := by
  have ⟨lit, _, byte, count, part, q, halted, out⟩ := agree
  exact debounced_related lit agree ⟨rfl, rfl, byte, count, part, q, halted, out⟩

theorem sameReceive_rise (t : Tick) :
    sameReceive (debounced t (riseCase t) s) (debounced t (riseCase t) s') := by
  have ⟨lit, lfe, byte, count, part, q, halted, out⟩ := agree
  refine debounced_related lit agree ⟨rfl, lfe, byte, count, part, ?_, halted, out⟩
  simp only [riseCase_q, acceptEdge_q, acceptEdge_lastFallingEdgeTick, lfe, q]

/-- Every operation but those of the transmit path takes agreeing states to agreeing states. -/
theorem exec_keeps_sameReceive {i : Instr} (agent : isTransmitOp i = false) :
    ∃ t t', exec i s = .next t ∧ exec i s' = .next t' ∧ sameReceive t t' := by
  have ⟨lit, lfe, byte, count, part, q, halted, out⟩ := agree
  have gated {op : State → State} (performed : sameReceive (op s) (op s')) :=
    whileRunning_related halted agree performed
  cases i with
  | sync | bit1 | bit0 => exact gated agree
  | sGap _ => exact gated (sameReceive_gapCase agree)
  | sOne _ => exact gated (sameReceive_dataCase agree true)
  | sZero _ => exact gated (sameReceive_dataCase agree false)
  | edgeFall t => exact gated (sameReceive_fall agree t)
  | edgeRise t => exact gated (sameReceive_rise agree t)
  | onEdge e =>
    obtain ⟨level, t⟩ := e
    cases level with
    | low => exact gated (sameReceive_fall agree t)
    | high => exact gated (sameReceive_rise agree t)
  | encode _ | isIdle _ => simp only [exec_encode, exec_isIdle]; exact gated agree
  | decSample => exact gated (sameReceive_decodeNext agree)
  | decFlush now =>
    have same := decFlushEnabled_of_sameReceive agree now
    cases enabled : decFlushEnabled now s with
    | true => exact ⟨_, _, exec_decFlush_of_enabled enabled, exec_decFlush_of_enabled (same ▸ enabled),
        sameReceive_flushFrame agree⟩
    | false => exact ⟨_, _, exec_decFlush_of_disabled enabled,
        exec_decFlush_of_disabled (same ▸ enabled), agree⟩
  | reset => exact ⟨_, _, exec_reset s, exec_reset s', rfl, rfl, rfl, rfl, rfl, rfl, rfl, rfl⟩
  | hwFail =>
    rw [exec_hwFail, exec_hwFail]
    exact gated ⟨lit, lfe, byte, count, part, q, rfl, out⟩
  | send _ _ | txAdvance => cases agent

end Receive

/-! ### The transmit path -/

/-- The decoder writes nothing the transmit path reads, and its events are no `SendResult`s. -/
theorem decoderOp_keeps_sameTransmit {i : Instr} {s s' t : State} (agent : isDecoderOp i = true)
    (agree : sameTransmit s s') (h : exec i s = .next t) : sameTransmit t s' := by
  obtain ⟨u, step, _, _, _, _, es, _, rfl, -, own⟩ := decoderOp_frame agent s
  rw [step] at h
  cases h
  obtain ⟨st, wave, elapsed, pin, lit, lfe, halted, free, out⟩ := agree
  have none_left : es.filter (fun e => !isDecoderEvent e) = [] :=
    List.filter_eq_nil_iff.mpr fun e mem => by simp [own e mem]
  refine ⟨st, wave, elapsed, pin, lit, lfe, halted, free, ?_⟩
  rw [List.filter_append, none_left, List.append_nil, out]

section Transmit

variable {s s' : State} (agree : sameTransmit s s')
include agree

theorem sameTransmit_emit (event : OutEvent) : sameTransmit (s.emit event) (s'.emit event) := by
  obtain ⟨st, wave, elapsed, pin, lit, lfe, halted, free, out⟩ := agree
  refine ⟨st, wave, elapsed, pin, lit, lfe, halted, free, ?_⟩
  rw [emit_out, emit_out, List.filter_append, List.filter_append, out]

theorem sameTransmit_sendCommand (str : List Char) (now : Tick) :
    sameTransmit (sendCommand str now s) (sendCommand str now s') := by
  have ⟨st, _, _, _, lit, lfe, halted, free, out⟩ := agree
  have gate : (txBusy s || !isIdle now s) = (txBusy s' || !isIdle now s') := by
    rw [txBusy, txBusy, st, isIdle_congr lfe]
  unfold sendCommand
  cases parseHex str with
  | none => exact sameTransmit_emit agree _
  | some bytes =>
    simp only [gate]
    split
    · exact sameTransmit_emit agree _
    · exact ⟨rfl, rfl, rfl, rfl, lit, lfe, halted, free, out⟩

/-- Both states are in the same phase, since the phases are told by fields on which they agree. -/
theorem sameTransmit_advance : sameTransmit (advanceMicrosecond s) (advanceMicrosecond s') := by
  have ⟨st, wave, elapsed, pin, lit, lfe, halted, free, out⟩ := agree
  have finished : (s.out ++ [OutEvent.sendResult .ok]).filter (fun e => !isDecoderEvent e) =
      (s'.out ++ [OutEvent.sendResult .ok]).filter fun e => !isDecoderEvent e := by
    rw [List.filter_append, List.filter_append, out]
  have counted : s.txElapsed + 1 = s'.txElapsed + 1 := congrArg (· + 1) elapsed
  have level : levelAt s.txWave (s.txElapsed + 1) = levelAt s'.txWave (s'.txElapsed + 1) := by
    rw [wave, elapsed]
  obtain ⟨p, -⟩ | ⟨p, b, -⟩ | ⟨p, b, c, -⟩ | ⟨p, b, -⟩ | ⟨p, b, -⟩ | ⟨p, b, -⟩ :=
    advanceMicrosecond_cases s
  · rw [advance_of_idle p, advance_of_idle (st ▸ p)]
    exact agree
  · rw [advance_of_playing p b]
    rw [wave, elapsed] at b
    rw [advance_of_playing (st ▸ p) b]
    exact ⟨st, wave, counted, level, lit, lfe, halted, free, out⟩
  · rw [advance_to_guard p b c]
    rw [wave, elapsed] at b c
    rw [advance_to_guard (st ▸ p) b c]
    exact ⟨rfl, wave, counted, rfl, lit, lfe, halted, free, out⟩
  · rw [advance_of_playing_past_guard p b]
    rw [wave, elapsed] at b
    rw [advance_of_playing_past_guard (st ▸ p) b]
    exact ⟨rfl, rfl, rfl, rfl, lit, lfe, halted, free, finished⟩
  · rw [advance_of_guard p b]
    rw [wave, elapsed] at b
    rw [advance_of_guard (st ▸ p) b]
    exact ⟨st, wave, counted, pin, lit, lfe, halted, free, out⟩
  · rw [advance_to_idle p b]
    rw [wave, elapsed] at b
    rw [advance_to_idle (st ▸ p) b]
    exact ⟨rfl, rfl, rfl, pin, lit, lfe, halted, free, finished⟩

theorem sameTransmit_fall (t : Tick) :
    sameTransmit (debounced t (fallCase t) s) (debounced t (fallCase t) s') := by
  have ⟨st, wave, elapsed, pin, lit, _, halted, free, out⟩ := agree
  exact debounced_related lit agree ⟨st, wave, elapsed, pin, rfl, rfl, halted, free, out⟩

theorem sameTransmit_rise (t : Tick) :
    sameTransmit (debounced t (riseCase t) s) (debounced t (riseCase t) s') := by
  have ⟨st, wave, elapsed, pin, lit, lfe, halted, free, out⟩ := agree
  exact debounced_related lit agree ⟨st, wave, elapsed, pin, rfl, lfe, halted, free, out⟩

/-- Every operation but the decoder's takes agreeing states to agreeing states. -/
theorem exec_keeps_sameTransmit {i : Instr} (agent : isDecoderOp i = false) :
    ∃ t t', exec i s = .next t ∧ exec i s' = .next t' ∧ sameTransmit t t' := by
  have ⟨st, wave, elapsed, pin, lit, lfe, halted, free, out⟩ := agree
  have freed : Config.freePinLevel s.freeCount = Config.freePinLevel s'.freeCount := by rw [free]
  have drawn : s.freeCount + 1 = s'.freeCount + 1 := congrArg (· + 1) free
  have gated {op : State → State} (performed : sameTransmit (op s) (op s')) :=
    whileRunning_related halted agree performed
  cases i with
  | sync | bit1 | bit0 => exact gated agree
  | edgeFall t => exact gated (sameTransmit_fall agree t)
  | edgeRise t => exact gated (sameTransmit_rise agree t)
  | onEdge e =>
    obtain ⟨level, t⟩ := e
    cases level with
    | low => exact gated (sameTransmit_fall agree t)
    | high => exact gated (sameTransmit_rise agree t)
  | encode _ | isIdle _ => simp only [exec_encode, exec_isIdle]; exact gated agree
  | send str now =>
    rw [exec_send, exec_send]
    exact gated (sameTransmit_sendCommand agree str now)
  | txAdvance =>
    cases running : s.halted with
    | true => exact ⟨_, _, exec_txAdvance_of_halted running, exec_txAdvance_of_halted (halted ▸ running),
        st, wave, elapsed, freed, lit, lfe, halted, drawn, out⟩
    | false => exact ⟨_, _, exec_txAdvance_running running, exec_txAdvance_running (halted ▸ running),
        sameTransmit_advance agree⟩
  | reset => exact ⟨_, _, exec_reset s, exec_reset s', rfl, rfl, rfl, rfl, rfl, rfl, rfl, free, rfl⟩
  | hwFail =>
    rw [exec_hwFail, exec_hwFail]
    exact gated ⟨st, wave, elapsed, freed, lit, lfe, rfl, drawn, out⟩
  | decSample | sGap _ | sOne _ | sZero _ | decFlush _ => cases agent

end Transmit

/-- Settles O51: one induction, for the relation of each path. -/
theorem pathsDoNotInterfere : Obligations.PathsDoNotInterfere := by
  unfold Obligations.PathsDoNotInterfere
  exact ⟨performAll_filter_related
      (fun _ _ _ _ agent agree h => transmitOp_keeps_sameReceive agent agree h)
      (fun _ _ _ agent agree => exec_keeps_sameReceive agree agent),
    performAll_filter_related
      (fun _ _ _ _ agent agree h => decoderOp_keeps_sameTransmit agent agree h)
      (fun _ _ _ agent agree => exec_keeps_sameTransmit agree agent)⟩

end Sys2Proof.Machine

/-! ## The notice of discarded bits (60_exceptions.md R133) -/

namespace Sys2Proof.Machine

/-- An event that is counted more often after an append is among the events appended. -/
theorem mem_of_count_lt_append {before es : List OutEvent} {event : OutEvent}
    (h : before.count event < (before ++ es).count event) : event ∈ es := by
  rw [List.count_append] at h
  exact List.count_pos_iff.mp (by omega)

/-- A gap that reports found bits in progress. -/
theorem gapCase_reports {s : State} {n : Nat}
    (reported : s.out.count (.strayBitsDiscarded n) < (gapCase s).out.count (.strayBitsDiscarded n)) :
    s.partialFrame = true ∧ s.currentBitCount ≠ 0 ∧ n = s.currentBitCount := by
  rw [gapCase_eq] at reported
  have mem := mem_of_count_lt_append reported
  split_ifs at mem with found
  · obtain ⟨owed, bits⟩ := found
    simp only [List.mem_singleton, OutEvent.strayBitsDiscarded.injEq] at mem
    exact ⟨owed, bits, mem⟩
  · cases mem

/-- A data sample emits nothing but a byte. -/
theorem dataCase_never_reports (v : Bool) (s : State) (n : Nat) :
    ¬ s.out.count (.strayBitsDiscarded n) < (dataCase v s).out.count (.strayBitsDiscarded n) := by
  intro reported
  rw [dataCase_eq] at reported
  split at reported
  · simpa using mem_of_count_lt_append reported
  · exact lt_irrefl _ reported

/-- The gap samples: a row `S_GAP`, or `DEC_SAMPLE` with such a sample at the head of the queue. -/
def IsGapSample (i : Instr) (s : State) : Prop :=
  (∃ v, i = .sGap v) ∨ (i = .decSample ∧ ∃ v ∈ s.q.head?, 2000 < 10 * v.toNat)

/-- A gap sample in a running block performs the gap's case, after the pop if there is one. -/
theorem exec_gapSample {i : Instr} {s : State} (running : s.halted = false) (gap : IsGapSample i s) :
    ∃ q, exec i s = .next (gapCase (s.withQueue q)) := by
  obtain ⟨v, rfl⟩ | ⟨rfl, v, head, range⟩ := gap
  · exact ⟨s.q, whileRunning_running running gapCase⟩
  · obtain ⟨rest, queue⟩ := List.head?_eq_some_iff.mp head
    rw [exec_decSample_of_cons running queue, processSample_of_gap range]
    exact ⟨rest, rfl⟩

/-- Of the decoder's operations only a gap sample and an enabled flush report discarded bits. -/
theorem decoderOp_reports {i : Instr} {s t : State} {n : Nat} (agent : isDecoderOp i = true)
    (h : exec i s = .next t)
    (reported : s.out.count (.strayBitsDiscarded n) < t.out.count (.strayBitsDiscarded n)) :
    (IsGapSample i s ∧ ∃ q, t = gapCase (s.withQueue q)) ∨
    (∃ now, i = .decFlush now ∧ t = flushFrame s) := by
  have waits (same : t = s.ret .noStep) : False := by
    rw [same] at reported
    exact lt_irrefl _ reported
  have running : s.halted = false := by
    by_contra halted
    have not_reset : i ≠ .reset := by rintro rfl; cases agent
    have not_advance : i ≠ .txAdvance := by rintro rfl; cases agent
    rw [exec_of_halted (eq_true_of_ne_false halted) not_reset not_advance] at h
    exact waits (Host.Outcome.next.inj h).symm
  have gated {op : State → State} (hop : whileRunning s op = .next t) : op s = t := by
    rw [whileRunning_running running] at hop
    exact Host.Outcome.next.inj hop
  cases i with
  | sGap v => exact .inl ⟨.inl ⟨v, rfl⟩, s.q, (gated h).symm⟩
  | sOne v => rw [← gated h] at reported; exact absurd reported (dataCase_never_reports true s n)
  | sZero v => rw [← gated h] at reported; exact absurd reported (dataCase_never_reports false s n)
  | decSample =>
    cases head : s.q with
    | nil => exact (waits ((gated h).symm.trans (decodeNext_of_nil head))).elim
    | cons v rest =>
      have performed := (gated h).symm.trans (decodeNext_of_cons head)
      rcases Nat.lt_or_ge 2000 (10 * v.toNat) with gap | data
      · rw [processSample_of_gap gap] at performed
        exact .inl ⟨.inr ⟨rfl, v, by rw [head]; rfl, gap⟩, rest, performed⟩
      · rw [performed, processSample_of_data data] at reported
        exact absurd reported (dataCase_never_reports _ (s.withQueue rest) n)
  | decFlush now =>
    cases enabled : decFlushEnabled now s with
    | true =>
      rw [exec_decFlush_of_enabled enabled] at h
      exact .inr ⟨now, rfl, (Host.Outcome.next.inj h).symm⟩
    | false =>
      rw [exec_decFlush_of_disabled enabled] at h
      exact (waits (Host.Outcome.next.inj h).symm).elim
  | _ => cases agent

/-- The notice is one of the decoder's events, so no other agent emits it. -/
theorem decoderOp_of_reports {i : Instr} {s t : State} {n : Nat} (h : exec i s = .next t)
    (reported : s.out.count (.strayBitsDiscarded n) < t.out.count (.strayBitsDiscarded n)) :
    isDecoderOp i = true := by
  obtain ⟨-, _, _, _, _, rfl⟩ | ⟨agent, -⟩ | ⟨-, _, _, _, _, _, es, _, rfl, -, own⟩ | ⟨-, _, _, rfl⟩ |
    ⟨-, _, _, _, rfl⟩ | ⟨-, rfl⟩ := exec_frame_cases h
  · exact absurd reported (lt_irrefl _)
  · exact agent
  · exact absurd (own _ (mem_of_count_lt_append reported)) Bool.noConfusion
  · exact absurd reported (lt_irrefl _)
  · exact absurd reported (lt_irrefl _)
  · exact absurd reported (Nat.not_lt_zero _)

/-- Settles O40: a notice comes from a gap's case or an enabled flush, and each of them emits it when
bits are held; bits are held only within a frame, by the invariant. -/
theorem strayBitsAreReportedOnce : Obligations.StrayBitsAreReportedOnce := by
  unfold Obligations.StrayBitsAreReportedOnce
  refine ⟨fun i s t n inv h reported => ?_, fun i s inv running bits gap => ?_,
    fun now s inv running bits empty late => ?_⟩
  · have below := inv.countBelowByte
    rw [params_byteBits] at below
    obtain ⟨gap, q, rfl⟩ | ⟨now, rfl, rfl⟩ :=
      decoderOp_reports (decoderOp_of_reports h reported) h reported
    · obtain ⟨owed, bits, rfl⟩ := gapCase_reports (s := s.withQueue q) reported
      rw [gapCase_of_bits owed bits]
      rw [withQueue_currentBitCount] at bits ⊢
      exact ⟨by omega, by omega, rfl, rfl, rfl, .inl ⟨rfl, gap⟩⟩
    · by_cases bits : s.currentBitCount = 0
      · rw [flushFrame_of_no_bits bits] at reported
        simpa using mem_of_count_lt_append reported
      · rw [flushFrame_of_bits bits] at reported ⊢
        have mem := mem_of_count_lt_append reported
        simp only [List.mem_cons, OutEvent.strayBitsDiscarded.injEq, reduceCtorEq, List.not_mem_nil,
          or_false] at mem
        subst mem
        exact ⟨by omega, by omega, rfl, rfl, rfl, .inr ⟨rfl, now, rfl⟩⟩
  · obtain ⟨q, performed⟩ := exec_gapSample running gap
    refine ⟨_, performed, ?_⟩
    rw [gapCase_of_bits (s := s.withQueue q) (inv.bitsArePartial bits) bits]
    exact ⟨rfl, rfl, rfl, rfl⟩
  · have enabled := (decFlushEnabled_iff now s).mpr
      ⟨running, empty, inv.bitsArePartial bits, (isIdle_iff now s).mpr late⟩
    refine ⟨_, exec_decFlush_of_enabled enabled, ?_⟩
    rw [flushFrame_of_bits bits]
    exact ⟨rfl, rfl, rfl, rfl⟩

end Sys2Proof.Machine

/-! ## Runs of the decoder (43_decoder.md R111): a queue processed sample by sample -/

namespace Sys2Proof.Machine

/-- The decoder's loop over a list of samples, without the queue; `performAll_decSamples` ties it to
runs of `DEC_SAMPLE`. -/
def decodeSamples (vs : List U8) (s : State) : State := vs.foldl (fun s v => processSample v s) s

@[simp] theorem decodeSamples_nil (s : State) : decodeSamples [] s = s := rfl
@[simp] theorem decodeSamples_cons (v : U8) (vs : List U8) (s : State) :
    decodeSamples (v :: vs) s = decodeSamples vs (processSample v s) := rfl

theorem decodeSamples_append (vs more : List U8) (s : State) :
    decodeSamples (vs ++ more) s = decodeSamples more (decodeSamples vs s) := List.foldl_append ..

theorem decodeSamples_concat (vs : List U8) (v : U8) (s : State) :
    decodeSamples (vs ++ [v]) s = processSample v (decodeSamples vs s) := decodeSamples_append vs [v] s

theorem decodeSamples_keeps_line (vs : List U8) (s : State) : sameLine (decodeSamples vs s) s := by
  induction vs generalizing s with
  | nil => exact ⟨rfl, rfl, rfl, rfl⟩
  | cons v vs ih =>
    obtain ⟨lit₁, lfe₁, q₁, halted₁⟩ := ih (processSample v s)
    obtain ⟨lit₂, lfe₂, q₂, halted₂⟩ := processSample_keeps_line v s
    exact ⟨lit₁.trans lit₂, lfe₁.trans lfe₂, q₁.trans q₂, halted₁.trans halted₂⟩

/-! The cases do not read the queue, so it can be replaced before or after them. -/

theorem gapCase_withQueue (s : State) (q : List U8) :
    gapCase (s.withQueue q) = (gapCase s).withQueue q := by
  rw [gapCase_eq, gapCase_eq]
  rfl

theorem dataCase_withQueue (v : Bool) (s : State) (q : List U8) :
    dataCase v (s.withQueue q) = (dataCase v s).withQueue q := by
  by_cases last : s.currentBitCount = 7
  · rw [dataCase_of_last v last, dataCase_of_last v (s := s.withQueue q) last]
    rfl
  · rw [dataCase_of_not_last v last, dataCase_of_not_last v (s := s.withQueue q) last]
    rfl

theorem processSample_withQueue (v : U8) (s : State) (q : List U8) :
    processSample v (s.withQueue q) = (processSample v s).withQueue q := by
  unfold processSample
  cases classify v with
  | gap => exact gapCase_withQueue s q
  | one => exact dataCase_withQueue true s q
  | zero => exact dataCase_withQueue false s q

/-- As many `DEC_SAMPLE` as there are samples in `vs` take these from the head of the queue. -/
theorem performAll_decSamples (vs rest : List U8) {s : State} (running : s.halted = false)
    (queue : s.q = vs ++ rest) :
    performAll (List.replicate vs.length .decSample) s =
      .next (decodeSamples vs (s.withQueue rest)) := by
  induction vs generalizing s with
  | nil =>
    have unchanged : s.withQueue rest = s := congrArg s.withQueue queue.symm
    rw [decodeSamples_nil, unchanged]
    rfl
  | cons v vs ih =>
    have popped : exec .decSample s = .next (processSample v (s.withQueue (vs ++ rest))) :=
      exec_decSample_of_cons running queue
    obtain ⟨-, -, q, halted⟩ := processSample_keeps_line v (s.withQueue (vs ++ rest))
    rw [List.length_cons, List.replicate_succ, performAll_cons popped, ih (halted.trans running) q,
      ← processSample_withQueue]
    rfl

/-- `DEC_SAMPLE`s beyond the last sample are passed over. -/
theorem performAll_decSamples_of_empty (n : Nat) {s : State} (empty : s.q = []) :
    ∃ r, performAll (List.replicate n .decSample) s = .next { s with result := r } := by
  induction n generalizing s with
  | zero => exact ⟨s.result, rfl⟩
  | succ n ih =>
    obtain ⟨r, run⟩ := ih (s := s.ret .noStep) empty
    exact ⟨r, by rw [List.replicate_succ, performAll_cons (exec_decSample_of_nil empty), run]; rfl⟩

/-! ### Data bits make bytes (20_memory.md R35, R37) -/

/-- The data case over a list of bits. -/
def decodeBits (bits : List Bool) (s : State) : State := bits.foldl (fun s v => dataCase v s) s

@[simp] theorem decodeBits_nil (s : State) : decodeBits [] s = s := rfl
@[simp] theorem decodeBits_cons (v : Bool) (bits : List Bool) (s : State) :
    decodeBits (v :: bits) s = decodeBits bits (dataCase v s) := rfl

theorem decodeBits_append (bits more : List Bool) (s : State) :
    decodeBits (bits ++ more) s = decodeBits more (decodeBits bits s) := List.foldl_append ..

/-- Data samples are bits, by the threshold at raw 900 (R116, R117). -/
theorem decodeSamples_of_data {vs : List U8} (data : ∀ v ∈ vs, 10 * v.toNat ≤ 2000) (s : State) :
    decodeSamples vs s = decodeBits (vs.map fun v => decide (900 < 10 * v.toNat)) s := by
  induction vs generalizing s with
  | nil => rfl
  | cons v vs ih =>
    obtain ⟨first, others⟩ := List.forall_mem_cons.mp data
    rw [decodeSamples_cons, processSample_of_data first, ih others]
    rfl

/-- The bits that complete a byte: the first of them goes just below the bits held, the last to
position 0, and the bits held stay. -/
theorem decodeBits_completes (bits : List Bool) (s : State) (nonempty : bits ≠ [])
    (completes : s.currentBitCount + bits.length = 8) :
    ∃ b : U8, decodeBits bits s =
        { s with partialFrame := true, currentBitCount := 0, currentByte := 0,
                 out := s.out ++ [.byte b], result := .done } ∧
      (∀ j v, bits[j]? = some v → b.getLsbD (7 - s.currentBitCount - j) = v) ∧
      ∀ k, 7 - s.currentBitCount < k → b.getLsbD k = s.currentByte.getLsbD k := by
  induction bits generalizing s with
  | nil => exact absurd rfl nonempty
  | cons v bits ih =>
    rw [List.length_cons] at completes
    have in_range : 7 - s.currentBitCount < 8 := by omega
    have stored := getLsbD_assignBit s.currentByte in_range v
    cases bits with
    | nil =>
      have last : s.currentBitCount = 7 := Nat.succ.inj completes
      refine ⟨_, dataCase_of_last v last, fun j w place => ?_, fun k above => ?_⟩
      · cases j with
        | zero => rw [Nat.sub_zero, stored, if_pos rfl]; exact Option.some.inj place
        | succ j => cases place
      · rw [stored, if_neg above.ne']
    | cons w bits =>
      have early : s.currentBitCount ≠ 7 := by
        rw [List.length_cons] at completes
        omega
      have counted : (dataCase v s).currentBitCount = s.currentBitCount + 1 := by
        rw [dataCase_of_not_last v early]
      have byte : (dataCase v s).currentByte =
          assignBit s.currentByte (7 - s.currentBitCount) v := by
        rw [dataCase_of_not_last v early]
      obtain ⟨b, run, places, kept⟩ := ih (dataCase v s) (List.cons_ne_nil w bits)
        (by rw [counted]; omega)
      rw [counted] at places kept
      rw [byte] at kept
      refine ⟨b, ?_, fun j u place => ?_, fun k above => ?_⟩
      · rw [decodeBits_cons, run, dataCase_of_not_last v early]
      · cases j with
        | zero =>
          rw [Nat.sub_zero, kept _ (by omega), stored, if_pos rfl]
          exact Option.some.inj place
        | succ j =>
          rw [← places j u place]
          congr 1
          omega
      · rw [kept k (by omega), stored, if_neg above.ne']

/-- Settles O37: eight data samples are eight bits from an empty byte. -/
theorem eightDataSamplesMakeAByte : Obligations.EightDataSamplesMakeAByte := by
  unfold Obligations.EightDataSamplesMakeAByte
  intro vs rest s eight data running clean queue
  have run := performAll_decSamples vs rest running queue
  rw [eight, decodeSamples_of_data data] at run
  have completes : (s.withQueue rest).currentBitCount +
      (vs.map fun v => decide (900 < 10 * v.toNat)).length = 8 := by
    rw [withQueue_currentBitCount, clean, List.length_map, eight]
  have nonempty : (vs.map fun v => decide (900 < 10 * v.toNat)) ≠ [] := by
    intro h
    simp [List.map_eq_nil_iff.mp h] at eight
  obtain ⟨b, decoded, places, -⟩ := decodeBits_completes _ (s.withQueue rest) nonempty completes
  rw [decoded] at run
  refine ⟨b, _, run, fun k v place => ?_, rfl, rfl, rfl, rfl, rfl⟩
  have placed := places k (decide (900 < 10 * v.toNat)) (by rw [List.getElem?_map, place]; rfl)
  rwa [withQueue_currentBitCount, clean] at placed

/-- The bits of a byte make that byte. -/
theorem decodeBits_byteBits (b : U8) {s : State} (clean : s.currentBitCount = 0) :
    decodeBits (byteBits b) s =
      { s with partialFrame := true, currentBitCount := 0, currentByte := 0,
               out := s.out ++ [.byte b], result := .done } := by
  have completes : s.currentBitCount + (byteBits b).length = 8 := by rw [clean]; rfl
  obtain ⟨b', decoded, places, -⟩ := decodeBits_completes (byteBits b) s (List.cons_ne_nil _ _) completes
  have same : b' = b := by
    refine BitVec.eq_of_getLsbD_eq fun k hk => ?_
    rw [clean] at places
    interval_cases k
    · exact places 7 _ rfl
    · exact places 6 _ rfl
    · exact places 5 _ rfl
    · exact places 4 _ rfl
    · exact places 3 _ rfl
    · exact places 2 _ rfl
    · exact places 1 _ rfl
    · exact places 0 _ rfl
  rw [decoded, same]

/-- The bits of a list of bytes, from a decoder that holds none, make those bytes. -/
theorem decodeBits_bytes (bytes : List U8) {s : State} (clean : s.currentBitCount = 0) :
    (decodeBits (bytes.flatMap byteBits) s).out = s.out ++ bytes.map .byte ∧
      (decodeBits (bytes.flatMap byteBits) s).currentBitCount = 0 ∧
      (bytes ≠ [] → (decodeBits (bytes.flatMap byteBits) s).partialFrame = true) := by
  induction bytes generalizing s with
  | nil => exact ⟨(List.append_nil _).symm, clean, absurd rfl⟩
  | cons b bytes ih =>
    have first := decodeBits_byteBits b clean
    have clean' : (decodeBits (byteBits b) s).currentBitCount = 0 := by rw [first]
    have out' : (decodeBits (byteBits b) s).out = s.out ++ [.byte b] := by rw [first]
    have owed' : (decodeBits (byteBits b) s).partialFrame = true := by rw [first]
    obtain ⟨out, count, owed⟩ := ih clean'
    rw [List.flatMap_cons, decodeBits_append]
    refine ⟨?_, count, fun _ => ?_⟩
    · rw [out, out', List.map_cons, List.append_assoc, List.singleton_append]
    · cases bytes with
      | nil => rw [List.flatMap_nil, decodeBits_nil, owed']
      | cons _ _ => exact owed (List.cons_ne_nil _ _)

end Sys2Proof.Machine

/-! ## Quiescence (70_reset_and_hazards.md R175) -/

namespace Sys2Proof.Machine

/-- What every operation of a list keeps, the list keeps. -/
theorem performAll_related {R : State → State → Prop} (refl : ∀ s, R s s)
    (trans : ∀ s t u, R s t → R t u → R s u) {ops : List Instr}
    (step : ∀ i ∈ ops, ∀ s t, exec i s = .next t → R s t) {s t : State}
    (h : performAll ops s = .next t) : R s t := by
  induction ops generalizing s with
  | nil => rw [← Host.Outcome.next.inj h]; exact refl s
  | cons i ops ih =>
    obtain ⟨first, others⟩ := List.forall_mem_cons.mp step
    obtain ⟨u, performed⟩ := everyOperationAnswersNext i s
    rw [performAll_cons performed] at h
    exact trans s u t (first s u performed) (ih others h)

theorem performAll_keeps_inv {ops : List Instr} {s t : State} (inv : Inv s)
    (h : performAll ops s = .next t) : Inv t :=
  performAll_related (R := fun s t => Inv s → Inv t) (fun _ => id) (fun _ _ _ f g => g ∘ f)
    (fun _ _ _ _ step inv => exec_keeps_inv inv step) h inv

theorem performAll_answers (ops : List Instr) (s : State) : ∃ t, performAll ops s = .next t := by
  induction ops generalizing s with
  | nil => exact ⟨s, rfl⟩
  | cons i ops ih =>
    obtain ⟨u, performed⟩ := everyOperationAnswersNext i s
    rw [performAll_cons performed]
    exact ih u

/-- The fields that the decoder's operations leave as they are, as far as quiescence reads them. -/
def sameBesideDecoder (s t : State) : Prop :=
  t.lastFallingEdgeTick = s.lastFallingEdgeTick ∧ t.halted = s.halted ∧ t.inbox = s.inbox ∧
    t.txState = s.txState ∧ t.txWave = s.txWave ∧ t.txElapsed = s.txElapsed

theorem sameBesideDecoder_refl (s : State) : sameBesideDecoder s s :=
  ⟨rfl, rfl, rfl, rfl, rfl, rfl⟩

theorem sameBesideDecoder_trans (s t u : State) (first : sameBesideDecoder s t)
    (second : sameBesideDecoder t u) : sameBesideDecoder s u := by
  obtain ⟨lfe₁, halted₁, inbox₁, st₁, wave₁, elapsed₁⟩ := first
  obtain ⟨lfe₂, halted₂, inbox₂, st₂, wave₂, elapsed₂⟩ := second
  exact ⟨lfe₂.trans lfe₁, halted₂.trans halted₁, inbox₂.trans inbox₁, st₂.trans st₁,
    wave₂.trans wave₁, elapsed₂.trans elapsed₁⟩

theorem decoderOp_sameBesideDecoder {i : Instr} (agent : isDecoderOp i = true) {s t : State}
    (h : exec i s = .next t) : sameBesideDecoder s t := by
  obtain ⟨u, step, _, _, _, _, _, _, rfl, -, -⟩ := decoderOp_frame agent s
  rw [step] at h
  cases h
  exact ⟨rfl, rfl, rfl, rfl, rfl, rfl⟩

/-- The fields that the passing of time leaves as they are, as far as quiescence reads them. -/
def sameBesideTransmit (s t : State) : Prop :=
  t.q = s.q ∧ t.partialFrame = s.partialFrame ∧ t.halted = s.halted ∧ t.inbox = s.inbox

theorem sameBesideTransmit_refl (s : State) : sameBesideTransmit s s := ⟨rfl, rfl, rfl, rfl⟩

theorem sameBesideTransmit_trans (s t u : State) (first : sameBesideTransmit s t)
    (second : sameBesideTransmit t u) : sameBesideTransmit s u := by
  obtain ⟨q₁, part₁, halted₁, inbox₁⟩ := first
  obtain ⟨q₂, part₂, halted₂, inbox₂⟩ := second
  exact ⟨q₂.trans q₁, part₂.trans part₁, halted₂.trans halted₁, inbox₂.trans inbox₁⟩

theorem transmitOp_sameBesideTransmit {i : Instr} (agent : isTransmitOp i = true) {s t : State}
    (h : exec i s = .next t) : sameBesideTransmit s t := by
  obtain ⟨u, step, _, _, _, _, _, _, _, rfl, -, -⟩ := transmitOp_frame agent s
  rw [step] at h
  cases h
  exact ⟨rfl, rfl, rfl, rfl⟩

/-- A sequencer that is not idle has a waveform in flight. -/
theorem inFlight_of_inv {s : State} (inv : Inv s) (running : s.halted = false)
    (busy : s.txState ≠ .idle) : InFlight s.txWave s.txElapsed s := by
  refine ⟨running, rfl, rfl, fun before => ?_, fun ended => ?_⟩
  · cases phase : s.txState with
    | idle => exact absurd phase busy
    | playing => exact ⟨rfl, inv.playingPin phase running⟩
    | guard => exact absurd (inv.guardAfterEnd phase) before.not_ge
  · cases phase : s.txState with
    | idle => exact absurd phase busy
    | playing => exact absurd (inv.playingBeforeEnd phase) ended.not_gt
    | guard => exact ⟨rfl, inv.guardPinLow phase running⟩

/-- The microseconds that are left of waveform and guard lead to idle. -/
theorem InFlight.run_out {w : Waveform} {e : Nat} {s t : State} (flight : InFlight w e s)
    (started : e < duration w + 20000)
    (h : performAll (List.replicate (duration w + 20000 - e) .txAdvance) s = .next t) :
    t.txState = .idle := by
  obtain ⟨n, left⟩ : ∃ n, duration w + 20000 - e = n + 1 := ⟨duration w + 20000 - e - 1, by omega⟩
  have time : microseconds (List.replicate n .txAdvance) = n := List.count_replicate_self
  have survives : ∀ i ∈ List.replicate n Instr.txAdvance, endsBlock i = false := by
    intro i mem
    rw [List.eq_of_mem_replicate mem]
    rfl
  obtain ⟨u, run, arrives, -⟩ := flight.run survives (by rw [time]; omega)
  rw [time] at arrives
  obtain ⟨v, finished, idle, -⟩ := arrives.finish (by omega)
  rw [left, List.replicate_succ', performAll_append run, performAll_cons finished] at h
  cases h
  exact idle

/-- As many `DEC_SAMPLE`s as it holds samples drain the queue of a running block. -/
theorem queue_of_drained {s t : State} (running : s.halted = false)
    (h : performAll (List.replicate s.q.length .decSample) s = .next t) : t.q = [] := by
  rw [performAll_decSamples s.q [] running (List.append_nil _).symm] at h
  cases h
  obtain ⟨-, -, q, -⟩ := decodeSamples_keeps_line s.q (s.withQueue [])
  exact q

/-- On an idle bus with an empty queue a flush leaves no terminator owed. -/
theorem exec_decFlush_settles {now : Tick} {s : State} (running : s.halted = false) (empty : s.q = [])
    (idle : isIdle now s = true) :
    ∃ t, exec (.decFlush now) s = .next t ∧ t.q = [] ∧ t.partialFrame = false := by
  cases owed : s.partialFrame with
  | true =>
    have enabled := (decFlushEnabled_iff now s).mpr ⟨running, empty, owed, idle⟩
    refine ⟨_, exec_decFlush_of_enabled enabled, by rw [flushFrame_q, empty], ?_⟩
    by_cases bits : s.currentBitCount = 0
    · rw [flushFrame_of_no_bits bits]
    · rw [flushFrame_of_bits bits]
  | false =>
    have disabled : decFlushEnabled now s = false := by simp [decFlushEnabled, owed]
    exact ⟨_, exec_decFlush_of_disabled disabled, empty, owed⟩

/-- The decoder's half: the samples drain the queue and the flush takes the terminator, and the rest of
the block is left alone. -/
theorem decoder_settles {now : Tick} {s : State} (running : s.halted = false)
    (idle : isIdle now s = true) :
    ∃ t, performAll (List.replicate s.q.length .decSample ++ [.decFlush now]) s = .next t ∧
      t.q = [] ∧ t.partialFrame = false ∧ sameBesideDecoder s t := by
  obtain ⟨u, drain⟩ := performAll_answers (List.replicate s.q.length .decSample) s
  have kept : sameBesideDecoder s u :=
    performAll_related sameBesideDecoder_refl sameBesideDecoder_trans
      (fun i mem _ _ h => decoderOp_sameBesideDecoder (by rw [List.eq_of_mem_replicate mem]; rfl) h)
      drain
  have ⟨lfe, halted, _⟩ := kept
  obtain ⟨t, flush, empty, settled⟩ := exec_decFlush_settles (halted.trans running)
    (queue_of_drained running drain) ((isIdle_congr lfe now).trans idle)
  refine ⟨t, ?_, empty, settled, ?_⟩
  · rw [performAll_append drain, performAll_cons flush, performAll_nil]
  · exact sameBesideDecoder_trans s u t kept (decoderOp_sameBesideDecoder rfl flush)

/-- The microseconds that quiescence waits for: those left of waveform and guard, if any. -/
def microsecondsLeft (s : State) : Nat :=
  if s.txState = .idle then 0 else duration s.txWave + 20000 - s.txElapsed

/-- The sequencer's half: time takes what is left, and the decoder is left alone. -/
theorem sequencer_settles {s : State} (inv : Inv s) (running : s.halted = false) :
    ∃ t, performAll (List.replicate (microsecondsLeft s) .txAdvance) s = .next t ∧
      t.txState = .idle ∧ sameBesideTransmit s t := by
  obtain ⟨t, time⟩ := performAll_answers (List.replicate (microsecondsLeft s) .txAdvance) s
  have kept : sameBesideTransmit s t :=
    performAll_related sameBesideTransmit_refl sameBesideTransmit_trans
      (fun i mem _ _ h => transmitOp_sameBesideTransmit (by rw [List.eq_of_mem_replicate mem]; rfl) h)
      time
  refine ⟨t, time, ?_, kept⟩
  by_cases free : s.txState = .idle
  · rw [microsecondsLeft, if_pos free] at time
    cases time
    exact free
  · rw [microsecondsLeft, if_neg free] at time
    exact (inFlight_of_inv inv running free).run_out (inv.inFlight free).2 time

/-- Settles O53: the decoder's half first, then the sequencer's, whose time the decoder has not
changed. -/
theorem quiescenceIsReached : Obligations.QuiescenceIsReached := by
  unfold Obligations.QuiescenceIsReached
  intro now s inv running nothing_lined idle
  obtain ⟨u, decoded, empty, settled, -, halted, inbox, st, wave, elapsed⟩ :=
    decoder_settles running idle
  obtain ⟨t, time, sequencer, q, part, halted', inbox'⟩ :=
    sequencer_settles (performAll_keeps_inv inv decoded) (halted.trans running)
  rw [microsecondsLeft, st, wave, elapsed] at time
  refine ⟨t, (performAll_append decoded).trans time, ?_⟩
  simp [quiescent, inbox', inbox, nothing_lined, q, empty, part, settled, sequencer, halted', halted,
    running]

end Sys2Proof.Machine

/-! ## A frame through the filter and the decoder (43_decoder.md R121, 70_reset_and_hazards.md R160) -/

namespace Sys2Proof.Machine

/-! ### Edges to come -/

/-- `Ahead lit lfe edges samples`: from the two ticks `lit` (last accepted edge) and `lfe` (last accepted
fall) all of `edges` pass the debounce, and their rises measure `samples`. -/
inductive Ahead : Tick → Tick → List EdgeEvent → List U8 → Prop where
  | done {lit lfe} : Ahead lit lfe [] []
  | fall {lit lfe t edges samples} (late : 100 ≤ (tdiff t lit).toNat)
      (rest : Ahead t t edges samples) : Ahead lit lfe (⟨.low, t⟩ :: edges) samples
  | rise {lit lfe t edges samples} (late : 100 ≤ (tdiff t lit).toNat)
      (rest : Ahead t lfe edges samples) :
      Ahead lit lfe (⟨.high, t⟩ :: edges) (quant (tdiff t lfe).toNat :: samples)

/-- A train of pulses gives one sample per mark; no mark is short enough to bounce or long enough
to wrap. -/
theorem ahead_pulseEdges {marks : List Nat} (range : ∀ m ∈ marks, 100 ≤ m ∧ m < 2 ^ 32)
    {t lit : Tick} (lfe : Tick) (late : 100 ≤ (tdiff t lit).toNat) :
    Ahead lit lfe (pulseEdges marks t) (marks.map quant) := by
  induction marks generalizing t lit lfe with
  | nil => exact .done
  | cons m marks ih =>
    obtain ⟨⟨long, short⟩, others⟩ := List.forall_mem_cons.mp range
    have measured : (tdiff (t + BitVec.ofNat 32 m) t).toNat = m := by
      rw [tdiff_add_left, BitVec.toNat_ofNat, Nat.mod_eq_of_lt short]
    have spaced (u : Tick) : 100 ≤ (tdiff (u + BitVec.ofNat 32 600) u).toNat := by
      rw [tdiff_add_left]
      decide
    have first := Ahead.rise (lfe := t) (measured.symm ▸ long) (ih others t (spaced _))
    rw [measured] at first
    exact .fall late first

theorem frameMarks_range (bytes : List U8) : ∀ m ∈ frameMarks bytes, 100 ≤ m ∧ m < 2 ^ 32 := by
  intro m mem
  obtain ⟨k, place⟩ := List.mem_iff_getElem?.mp mem
  obtain ⟨-, rfl⟩ | ⟨-, rfl | rfl⟩ := getElem?_frameMarks place
  · decide
  · decide
  · decide

/-- The edges of a frame give its samples. -/
theorem ahead_frame (bytes : List U8) {t0 lit : Tick} (lfe : Tick)
    (late : 100 ≤ (tdiff t0 lit).toNat) :
    Ahead lit lfe (busEdges (encodeBytes bytes) t0) (frameSamples bytes) := by
  rw [frameSamples, lowPeriods_encodeBytes, encodeBytes_eq_pulses, busEdges_pulses]
  exact ahead_pulseEdges (frameMarks_range bytes) lfe late

/-! ### A frame's samples in the decoder -/

/-- The sample of a data bit. -/
def bitSample (v : Bool) : U8 := if v then 120 else 60

theorem frameSamples_eq (bytes : List U8) :
    frameSamples bytes = 240 :: (bytes.flatMap byteBits).map bitSample := by
  obtain ⟨-, samples, -, -⟩ := frameOnTheBus bytes 0
  exact samples

theorem length_frameSamples (bytes : List U8) : (frameSamples bytes).length = 1 + 8 * bytes.length := by
  rw [frameSamples_eq, List.length_cons, List.length_map, length_flatMap_byteBits, Nat.add_comm]

theorem decodeSamples_bitSamples (bits : List Bool) (s : State) :
    decodeSamples (bits.map bitSample) s = decodeBits bits s := by
  have data : ∀ v ∈ bits.map bitSample, 10 * v.toNat ≤ 2000 := by
    intro v mem
    obtain ⟨bit, -, rfl⟩ := List.mem_map.mp mem
    cases bit <;> decide
  have bits_back : (bits.map bitSample).map (fun v => decide (900 < 10 * v.toNat)) = bits := by
    rw [List.map_map]
    refine (List.map_congr_left fun v _ => ?_).trans (List.map_id bits)
    cases v <;> rfl
  rw [decodeSamples_of_data data, bits_back]

/-- On a clean decoder the sync of a frame does nothing (decision D13). -/
theorem processSample_sync {s : State} (count : s.currentBitCount = 0) (byte : s.currentByte = 0) :
    processSample 240 s = s.ret .done := by
  have clean : ¬ (s.partialFrame = true ∧ s.currentBitCount ≠ 0) := fun held => held.2 count
  rw [processSample_of_gap (by decide), gapCase_of_clean clean, ← count, ← byte]
  rfl

theorem decodeSamples_frame (bytes : List U8) {s : State} (count : s.currentBitCount = 0)
    (byte : s.currentByte = 0) :
    decodeSamples (frameSamples bytes) s = decodeBits (bytes.flatMap byteBits) (s.ret .done) := by
  rw [frameSamples_eq, decodeSamples_cons, processSample_sync count byte, decodeSamples_bitSamples]

/-- `DEC_SAMPLE`s, at least as many as samples wait, process what waits. -/
theorem performAll_drain {n : Nat} {s : State} (running : s.halted = false)
    (enough : s.q.length ≤ n) : ∃ r, performAll (List.replicate n .decSample) s =
      .next ((decodeSamples s.q (s.withQueue [])).ret r) := by
  obtain ⟨extra, rfl⟩ := Nat.exists_eq_add_of_le enough
  obtain ⟨-, -, empty, -⟩ := decodeSamples_keeps_line s.q (s.withQueue [])
  obtain ⟨r, passed⟩ := performAll_decSamples_of_empty extra empty
  refine ⟨r, ?_⟩
  rw [List.replicate_add,
    performAll_append (performAll_decSamples s.q [] running (List.append_nil _).symm), passed]
  rfl

/-! ### The decoder stalled for the whole frame (R160) -/

/-- Accepted edges alone fill the queue with their samples and leave the decoder as it was. -/
theorem performAll_edges {lit lfe : Tick} {edges : List EdgeEvent} {samples : List U8}
    (ahead : Ahead lit lfe edges samples) {s : State} (running : s.halted = false)
    (hlit : s.lastInterruptTick = lit) (hlfe : s.lastFallingEdgeTick = lfe) :
    ∃ t, performAll (edges.map .onEdge) s = .next t ∧ t.q = samples.foldl qPush s.q ∧
      t.halted = s.halted ∧ t.currentBitCount = s.currentBitCount ∧ t.currentByte = s.currentByte ∧
      t.out = s.out := by
  induction ahead generalizing s with
  | done => exact ⟨s, rfl, rfl, rfl, rfl, rfl, rfl⟩
  | @fall lit lfe t edges samples late _ ih =>
    subst hlit hlfe
    have accepted : exec (.edgeFall t) s = .next (fallCase t (s.acceptEdge t)) :=
      exec_edgeFall_of_late running late
    obtain ⟨u, run, kept⟩ := ih (s := fallCase t (s.acceptEdge t)) running rfl rfl
    exact ⟨u, (performAll_cons accepted _).trans run, kept⟩
  | @rise lit lfe t edges samples late _ ih =>
    subst hlit hlfe
    have accepted : exec (.edgeRise t) s = .next (riseCase t (s.acceptEdge t)) :=
      exec_edgeRise_of_late running late
    obtain ⟨u, run, kept⟩ := ih (s := riseCase t (s.acceptEdge t)) running rfl rfl
    exact ⟨u, (performAll_cons accepted _).trans run, kept⟩

theorem drop_flatMap_byteBits (k : Nat) (bytes : List U8) :
    (bytes.flatMap byteBits).drop (8 * k) = (bytes.drop k).flatMap byteBits := by
  induction k generalizing bytes with
  | zero => rfl
  | succ k ih =>
    cases bytes with
    | nil => simp
    | cons b bytes =>
      have first : 8 * (k + 1) = (byteBits b).length + 8 * k := by
        rw [show (byteBits b).length = 8 from rfl]
        omega
      rw [List.flatMap_cons, first, List.drop_length_add_append, List.drop_succ_cons, ih]

/-- What the queue holds of a frame that nothing has been taken from: its last 200 samples. -/
def keptSamples (bytes : List U8) : List U8 :=
  (frameSamples bytes).drop ((frameSamples bytes).length - 200)

theorem foldl_qPush_frameSamples (bytes : List U8) :
    (frameSamples bytes).foldl qPush [] = keptSamples bytes :=
  burstKeepsTheLastSamples [] (frameSamples bytes) (Nat.zero_le _)

theorem length_keptSamples_le (bytes : List U8) :
    (keptSamples bytes).length ≤ 1 + 8 * bytes.length := by
  rw [keptSamples, List.length_drop, length_frameSamples]
  exact Nat.sub_le _ _

/-- The last 200 samples of a frame make its last 25 bytes: up to 24 bytes nothing is lost, and from 25
on the sync is lost with the bytes before. -/
theorem decodeSamples_kept (bytes : List U8) {s : State} (count : s.currentBitCount = 0)
    (byte : s.currentByte = 0) :
    (decodeSamples (keptSamples bytes) s).out =
        s.out ++ (bytes.drop (bytes.length - 25)).map .byte ∧
      (decodeSamples (keptSamples bytes) s).currentBitCount = 0 := by
  rw [keptSamples, length_frameSamples]
  rcases Nat.lt_or_ge bytes.length 25 with short | long
  · have all_kept : 1 + 8 * bytes.length - 200 = 0 := by omega
    have all_bytes : bytes.length - 25 = 0 := by omega
    rw [all_kept, all_bytes, List.drop_zero, List.drop_zero, decodeSamples_frame bytes count byte]
    obtain ⟨out, count', -⟩ := decodeBits_bytes bytes (s := s.ret .done) count
    exact ⟨out, count'⟩
  · have lost : 1 + 8 * bytes.length - 200 = 8 * (bytes.length - 25) + 1 := by omega
    rw [lost, frameSamples_eq, List.drop_succ_cons, ← List.map_drop, drop_flatMap_byteBits,
      decodeSamples_bitSamples]
    obtain ⟨out, count', -⟩ := decodeBits_bytes (bytes.drop (bytes.length - 25)) count
    exact ⟨out, count'⟩

/-- Settles O42: the edges leave the last 200 samples in the queue (O31), which the decoder then
processes. -/
theorem stalledDecoderKeepsLastBytes : Obligations.StalledDecoderKeepsLastBytes := by
  unfold Obligations.StalledDecoderKeepsLastBytes
  intro bytes t0 s _ running empty count byte _ late
  obtain ⟨t, edges, queue, halted, count', byte', out⟩ :=
    performAll_edges (ahead_frame bytes s.lastFallingEdgeTick late) running rfl rfl
  rw [empty, foldl_qPush_frameSamples] at queue
  have enough : t.q.length ≤ 1 + 8 * bytes.length := queue ▸ length_keptSamples_le bytes
  obtain ⟨r, drained⟩ := performAll_drain (halted.trans running) enough
  obtain ⟨decoded, count''⟩ :=
    decodeSamples_kept bytes (s := t.withQueue []) (count'.trans count) (byte'.trans byte)
  obtain ⟨-, -, q, -⟩ := decodeSamples_keeps_line t.q (t.withQueue [])
  rw [← queue] at decoded count''
  exact ⟨_, (performAll_append edges).trans drained, by rw [ret_out, decoded, withQueue_out, out], q,
    count''⟩

/-! ### A frame under every schedule (43_decoder.md R121) -/

theorem sameDecoder_refl (s : State) : sameDecoder s s := ⟨rfl, rfl, rfl, rfl⟩

theorem sameDecoder_trans {s t u : State} (first : sameDecoder s t) (second : sameDecoder t u) :
    sameDecoder s u := by
  obtain ⟨byte₁, count₁, part₁, out₁⟩ := first
  obtain ⟨byte₂, count₂, part₂, out₂⟩ := second
  exact ⟨byte₁.trans byte₂, count₁.trans count₂, part₁.trans part₂, out₁.trans out₂⟩

theorem sameDecoder_decodeSamples (vs : List U8) {s t : State} (agree : sameDecoder s t) :
    sameDecoder (decodeSamples vs s) (decodeSamples vs t) := by
  induction vs generalizing s t with
  | nil => exact agree
  | cons v vs ih => exact ih (sameDecoder_processSample agree v)

/-- Midway through a schedule that started in `start`: the samples taken by the decoder, those in the
queue and those of the edges to come are `all` samples, in order, and the decoder is where the samples
taken leave it. A sync that the full queue has evicted counts as taken, for a clean decoder makes
nothing of it. -/
structure Receiving (start : State) (all : List U8) (edges : List EdgeEvent) (s : State) : Prop where
  running : s.halted = false
  samples : ∃ taken coming, Ahead s.lastInterruptTick s.lastFallingEdgeTick edges coming ∧
    taken ++ (s.q ++ coming) = all ∧ sameDecoder s (decodeSamples taken start)

/-- The frame of a short command, at a decoder with no byte in progress. -/
structure ShortFrame (start : State) (all : List U8) : Prop where
  sync : ∃ data, all = 240 :: data
  short : all.length ≤ 201
  count : start.currentBitCount = 0
  byte : start.currentByte = 0

section Schedule

variable {start s t : State} {all : List U8} {edges : List EdgeEvent}

/-- What the receive path does not notice does not disturb the reception. -/
theorem Receiving.of_sameReceive (receiving : Receiving start all edges s) (same : sameReceive t s) :
    Receiving start all edges t := by
  obtain ⟨running, taken, coming, ahead, split, decoder⟩ := receiving
  obtain ⟨⟨lit, lfe, q, halted⟩, own⟩ := (sameReceive_iff t s).mp same
  exact ⟨halted.trans running, taken, coming, by rwa [lit, lfe], by rwa [q],
    sameDecoder_trans own decoder⟩

/-- `DEC_SAMPLE` moves a sample from the queue to those taken, or finds none. -/
theorem Receiving.sample (receiving : Receiving start all edges s) (h : exec .decSample s = .next t) :
    Receiving start all edges t := by
  cases head : s.q with
  | nil =>
    rw [exec_decSample_of_nil head] at h
    cases h
    exact receiving.of_sameReceive ⟨rfl, rfl, rfl, rfl, rfl, rfl, rfl, rfl⟩
  | cons v rest =>
    obtain ⟨running, taken, coming, ahead, split, decoder⟩ := receiving
    rw [exec_decSample_of_cons running head] at h
    cases h
    obtain ⟨lit, lfe, q, halted⟩ := processSample_keeps_line v (s.withQueue rest)
    refine ⟨halted.trans running, taken ++ [v], coming, by rwa [lit, lfe], ?_, ?_⟩
    · rw [q, ← split, head]
      simp
    · rw [decodeSamples_concat]
      exact sameDecoder_processSample (s := s.withQueue rest) decoder v

/-- An edge event is accepted: a fall adds nothing, a rise moves its sample into the queue. A full queue
holds the whole frame but this sample, so what it evicts is the sync. -/
theorem Receiving.edge {e : EdgeEvent} (frame : ShortFrame start all)
    (receiving : Receiving start all (e :: edges) s) (h : exec (.onEdge e) s = .next t) :
    Receiving start all edges t := by
  obtain ⟨running, taken, coming, ahead, split, decoder⟩ := receiving
  cases ahead with
  | fall late rest =>
    rw [exec_onEdge_low, exec_edgeFall_of_late running late] at h
    cases h
    exact ⟨running, taken, coming, rest, split, decoder⟩
  | @rise _ _ tick _ coming late rest =>
    rw [exec_onEdge_high, exec_edgeRise_of_late running late] at h
    cases h
    generalize quant (tdiff tick s.lastFallingEdgeTick).toNat = v at split
    by_cases full : s.q.length = 200
    · obtain ⟨⟨data, sync⟩, short, count, byte⟩ := frame
      have whole : taken.length + (200 + (coming.length + 1)) ≤ 201 := by
        rw [← split, List.length_append, List.length_append, List.length_cons, full] at short
        exact short
      obtain rfl : taken = [] := List.eq_nil_of_length_eq_zero (by omega)
      obtain ⟨oldest, younger, queue⟩ := List.exists_cons_of_length_pos (by omega : 0 < s.q.length)
      rw [List.nil_append, queue, sync] at split
      obtain ⟨rfl, others⟩ : oldest = 240 ∧ younger ++ v :: coming = data := List.cons.inj split
      have pushed : qPush s.q v = younger ++ [v] := by rw [qPush_of_full full, queue, List.tail_cons]
      refine ⟨running, [240], coming, rest, ?_, ?_⟩
      · simp only [pushed, sync, ← others]
        simp
      · rw [decodeSamples_cons, decodeSamples_nil, processSample_sync count byte]
        exact decoder
    · refine ⟨running, taken, coming, rest, ?_, decoder⟩
      simp only [qPush_of_not_full full]
      rw [← split]
      simp

/-- Neither the transmit path nor a quiet operation is noticed by the receive path. -/
theorem exec_sameReceive_of_other {i : Instr} (not_filter : isFilterOp i = false)
    (not_decoder : isDecoderOp i = false) (survives : endsBlock i = false)
    (h : exec i s = .next t) : sameReceive t s := by
  have refl : sameReceive s s := ⟨rfl, rfl, rfl, rfl, rfl, rfl, rfl, rfl⟩
  obtain ⟨agent, -⟩ | ⟨agent, -⟩ | ⟨agent, -⟩ | ⟨-, _, _, rfl⟩ | ⟨rfl, -⟩ | ⟨rfl, -⟩ :=
    exec_frame_cases h
  · rw [not_filter] at agent; cases agent
  · rw [not_decoder] at agent; cases agent
  · exact transmitOp_keeps_sameReceive agent refl h
  · exact refl
  · cases survives
  · cases survives

/-- An operation that is no edge event keeps the edges to come. -/
theorem Receiving.other {i : Instr} (receiving : Receiving start all edges s)
    (not_filter : isFilterOp i = false) (survives : endsBlock i = false)
    (not_row : isClassRow i = false) (no_flush : ∀ now, i = .decFlush now → decFlushEnabled now s = false)
    (h : exec i s = .next t) : Receiving start all edges t := by
  cases agent : isDecoderOp i with
  | false => exact receiving.of_sameReceive (exec_sameReceive_of_other not_filter agent survives h)
  | true =>
    cases i with
    | decSample => exact receiving.sample h
    | decFlush now =>
      rw [exec_decFlush_of_disabled (no_flush now rfl)] at h
      cases h
      exact receiving.of_sameReceive ⟨rfl, rfl, rfl, rfl, rfl, rfl, rfl, rfl⟩
    | sGap _ | sOne _ | sZero _ => cases not_row
    | _ => cases agent

/-- A schedule runs through all edges. -/
theorem Receiving.run (frame : ShortFrame start all) {ops : List Instr}
    (receiving : Receiving start all edges s)
    (schedule : ops.filter isFilterOp = edges.map .onEdge)
    (survives : ∀ i ∈ ops, endsBlock i = false) (no_rows : ∀ i ∈ ops, isClassRow i = false)
    (no_flush : noFlushFires ops s = true) :
    ∃ t, performAll ops s = .next t ∧ Receiving start all [] t := by
  induction ops generalizing edges s with
  | nil =>
    obtain rfl : edges = [] := List.map_eq_nil_iff.mp schedule.symm
    exact ⟨s, rfl, receiving⟩
  | cons i ops ih =>
    obtain ⟨survives_i, survives_ops⟩ := List.forall_mem_cons.mp survives
    obtain ⟨no_row, no_rows_ops⟩ := List.forall_mem_cons.mp no_rows
    obtain ⟨u, performed⟩ := everyOperationAnswersNext i s
    obtain ⟨no_flush_i, no_flush_ops⟩ := (noFlushFires_cons performed ops).mp no_flush
    rw [performAll_cons performed]
    cases agent : isFilterOp i with
    | true =>
      rw [List.filter_cons_of_pos agent] at schedule
      cases edges with
      | nil => cases schedule
      | cons e edges =>
        obtain ⟨rfl, edges_left⟩ := List.cons.inj schedule
        exact ih (receiving.edge frame performed) edges_left survives_ops no_rows_ops
          no_flush_ops
    | false =>
      rw [List.filter_cons_of_neg (ne_true_of_eq_false agent)] at schedule
      exact ih (receiving.other agent survives_i no_row no_flush_i performed) schedule survives_ops
        no_rows_ops no_flush_ops

/-- Once all edges have been delivered, enough `DEC_SAMPLE`s take the decoder through all samples. -/
theorem Receiving.drain (receiving : Receiving start all [] s) {n : Nat} (enough : all.length ≤ n) :
    ∃ t, performAll (List.replicate n .decSample) s = .next t ∧
      sameDecoder t (decodeSamples all start) ∧ t.q = [] ∧ t.halted = false := by
  obtain ⟨running, taken, coming, ahead, split, decoder⟩ := receiving
  cases ahead
  rw [List.append_nil] at split
  have bound : s.q.length ≤ n := by
    rw [← split, List.length_append] at enough
    omega
  obtain ⟨r, drained⟩ := performAll_drain running bound
  obtain ⟨-, -, q, halted⟩ := decodeSamples_keeps_line s.q (s.withQueue [])
  refine ⟨_, drained, ?_, q, halted.trans running⟩
  rw [← split, decodeSamples_append]
  exact sameDecoder_decodeSamples s.q (s := s.withQueue []) decoder

end Schedule

theorem shortFrame_frameSamples {bytes : List U8} (short : bytes.length ≤ 25) {s : State}
    (count : s.currentBitCount = 0) (byte : s.currentByte = 0) : ShortFrame s (frameSamples bytes) := by
  refine ⟨⟨_, frameSamples_eq bytes⟩, ?_, count, byte⟩
  rw [length_frameSamples]
  omega

/-- Settles O41: the schedule takes the reception through all edges, the drain through all samples; the
decoder is then where a frame's samples leave a clean one. -/
theorem frameDecodesUnderEverySchedule : Obligations.FrameDecodesUnderEverySchedule := by
  unfold Obligations.FrameDecodesUnderEverySchedule
  intro bytes t0 s ops nonempty short running empty count byte _ late schedule survives no_rows no_flush
  have start : Receiving s (frameSamples bytes) (busEdges (encodeBytes bytes) t0) s :=
    ⟨running, [], frameSamples bytes, ahead_frame bytes _ late, by rw [empty]; rfl, sameDecoder_refl s⟩
  obtain ⟨u, scheduled, arrived⟩ := start.run (shortFrame_frameSamples short count byte) schedule
    survives no_rows no_flush
  obtain ⟨t, drained, decoder, q, running'⟩ := arrived.drain (length_frameSamples bytes).le
  obtain ⟨out, count', owed⟩ := decodeBits_bytes bytes (s := s.ret .done) count
  rw [decodeSamples_frame bytes count byte] at decoder
  obtain ⟨-, same_count, same_part, same_out⟩ := decoder
  have decoded : t.out.filter isDecoderEvent = s.out.filter isDecoderEvent ++ bytes.map .byte := by
    have own : (bytes.map OutEvent.byte).filter isDecoderEvent = bytes.map .byte :=
      List.filter_eq_self.mpr fun e mem => by
        obtain ⟨b, -, rfl⟩ := List.mem_map.mp mem
        rfl
    rw [same_out, out, List.filter_append, own, ret_out]
  have owed' : t.partialFrame = true :=
    same_part.trans (owed (List.ne_nil_of_length_pos nonempty))
  refine ⟨t, (performAll_append scheduled).trans drained, decoded, q, same_count.trans count', owed',
    fun now idle => ?_⟩
  have enabled := (decFlushEnabled_iff now t).mpr ⟨running', q, owed', idle⟩
  refine ⟨_, exec_decFlush_of_enabled enabled, ?_⟩
  rw [flushFrame_of_no_bits (same_count.trans count')]
  exact ⟨rfl, rfl⟩

end Sys2Proof.Machine
